-- ==== Sys2Proof/Word.lean ====
section
/-!
DEFINITION. The element types of the QRD block: words, bytes, host addresses and grid cells
(00_scope.md R8, R9; 20_memory.md R53; 30_encoding.md R71, R80). All values are unsigned.
-/

namespace Sys2Proof

/-- A register as the host reads and writes it, and a command word (10_state.md R15, 30_encoding.md R71). -/
abbrev Word := BitVec 32

/-- One byte: a codeword and an element of GF(256) (30_encoding.md R82, 40_field_and_bit_primitives.md R84). -/
abbrev Byte := BitVec 8

/-- The host's 20-bit element address (20_memory.md R53). -/
abbrev Addr := BitVec 20

/-- The three values of a cell of the module grid (10_state.md R33). -/
inductive Cell where
  | dataLight
  | dataDark
  | function
deriving DecidableEq, Repr, Inhabited

/-- The symbolic error-correction levels, the index of the capacity table (30_encoding.md R78). -/
inductive Level where
  | l
  | m
  | q
  | h
deriving DecidableEq, Repr, Inhabited

end Sys2Proof
end

