-- ==== Sys2Proof/Syntax.lean ====
section
/-!
DEFINITION. The ten commands of the QRD block (30_encoding.md R73), one constructor per row of
spec/opcode_table.json.
-/

namespace Sys2Proof

/-- A command. `blk` is the block index of format C1, the operand `BLKSEL` (30_encoding.md R71, R72). -/
inductive Instr where
  | nop
  | fmtdec
  | unmask
  | extract
  | deint
  | synd (blk : Nat)
  | rscor (blk : Nat)
  | rsall
  | run
  | srst
deriving DecidableEq, Repr

end Sys2Proof
end

