-- ==== Sys2Proof/WellFormed.lean ====
section
/-!
DEFINITION. Which terms of `Instr` a command word can carry: the block operand fits the eight bits of `BLKSEL`
(30_encoding.md R71, R72). Whether the block exists is judged by the command (60_exceptions.md R156).
-/

namespace Sys2Proof

/-- The block operand of a format C1 command is 0 to 255; a format C0 command has no operand. -/
def Instr.wf : Instr → Bool
  | .nop => true
  | .fmtdec => true
  | .unmask => true
  | .extract => true
  | .deint => true
  | .synd blk => decide (blk < 256)
  | .rscor blk => decide (blk < 256)
  | .rsall => true
  | .run => true
  | .srst => true

end Sys2Proof
end

