-- ==== Sys2Proof/Decode.lean ====
section
/-!
DEFINITION. The command word: decoding, total on every 32-bit word and rejecting by name, and encoding
(30_encoding.md R71 to R74).
-/

namespace Sys2Proof

/-- Why a word is no command, the three lists of 30_encoding.md R74 (the names are a DESIGN CHOICE, log 14). -/
inductive IllegalWord where
  /-- `OP` is 0x09 to 0x0E or 0x10 to 0xFF. -/
  | unassignedOpcode
  /-- A bit of [31:16] is 1. -/
  | highHalfNotZero
  /-- A format C0 opcode with a bit of [15:8] at 1. -/
  | operandOnC0
deriving DecidableEq, Repr

/-- `OP`, bits [7:0] (30_encoding.md R71). -/
def opField (w : Word) : BitVec 8 := w.extractLsb' 0 8

/-- `BLKSEL`, bits [15:8] (30_encoding.md R71). -/
def blkSelField (w : Word) : BitVec 8 := w.extractLsb' 8 8

/-- Bits [31:16], zero in every command (30_encoding.md R71). -/
def highHalf (w : Word) : BitVec 16 := w.extractLsb' 16 16

/-- A format C0 command stands only with zeros in [31:8] (30_encoding.md R71). -/
def decodeC0 (w : Word) (i : Instr) : Except IllegalWord Instr :=
  if highHalf w ≠ 0 then .error .highHalfNotZero
  else if blkSelField w ≠ 0 then .error .operandOnC0
  else .ok i

/-- A format C1 command takes `blk` from [15:8] and needs zeros in [31:16] (30_encoding.md R71, R72). -/
def decodeC1 (w : Word) (i : Nat → Instr) : Except IllegalWord Instr :=
  if highHalf w ≠ 0 then .error .highHalfNotZero
  else .ok (i (blkSelField w).toNat)

/-- The opcode map (30_encoding.md R73); `OP` alone decides the format (R71). -/
def decode (w : Word) : Except IllegalWord Instr :=
  match (opField w).toNat with
  | 0x00 => decodeC0 w .nop
  | 0x01 => decodeC0 w .fmtdec
  | 0x02 => decodeC0 w .unmask
  | 0x03 => decodeC0 w .extract
  | 0x04 => decodeC0 w .deint
  | 0x05 => decodeC1 w .synd
  | 0x06 => decodeC1 w .rscor
  | 0x07 => decodeC0 w .rsall
  | 0x08 => decodeC0 w .run
  | 0x0F => decodeC0 w .srst
  | _ => .error .unassignedOpcode

/-- Format C0: the opcode under 24 zeros (30_encoding.md R71). -/
def encodeC0 (op : BitVec 8) : Word := 0#24 ++ op

/-- Format C1: 16 zeros, `BLKSEL`, the opcode (30_encoding.md R71). -/
def encodeC1 (op : BitVec 8) (blk : Nat) : Word := 0#16 ++ BitVec.ofNat 8 blk ++ op

/-- The word the host writes to `CMD` for a command (30_encoding.md R73, R76). -/
def encode : Instr → Word
  | .nop => encodeC0 0x00
  | .fmtdec => encodeC0 0x01
  | .unmask => encodeC0 0x02
  | .extract => encodeC0 0x03
  | .deint => encodeC0 0x04
  | .synd blk => encodeC1 0x05 blk
  | .rscor blk => encodeC1 0x06 blk
  | .rsall => encodeC0 0x07
  | .run => encodeC0 0x08
  | .srst => encodeC0 0x0F

/-- What the decoder reads from a row of the opcode table: the low `nbits` bits of `w`, zeros above. A command is one
32-bit word and is written whole, so there is no byte order in it (20_memory.md R63, 30_encoding.md R71). -/
def decodeTableWord (nbits w : Nat) : Option Instr :=
  match decode (BitVec.ofNat 32 (w % 2 ^ nbits)) with
  | .ok i => some i
  | .error _ => none

end Sys2Proof
end

