-- ==== Sys2Proof/Config.lean ====
section
/-!
DEFINITION. What an implementation of the QRD block fixes: the shape of the named parameters
(00_scope.md R6, 10_state.md R41) and the free values (10_state.md R43). The default contents of the
parameters stand in Machine/Tables.lean.
-/

namespace Sys2Proof

/-- One record of the capacity table `CAP`: block count, total and data codewords per block, for one or two
block groups (15_rom_tables.md R49). -/
structure CapRecord where
  c1 : Nat
  n1 : Nat
  k1 : Nat
  c2 : Nat
  n2 : Nat
  k2 : Nat
deriving DecidableEq, Repr, Inhabited

/-- The named parameters of the block as bare data (00_scope.md R6); `Params` of Machine/Params.lean adds that they are
well-formed. `fmttab` is the 32 entries of `FMTTAB` in index order;
`cap` is the 160 records of `CAP`, version by version, within a version in the order L, M, Q, H (log 9). -/
structure RawParams where
  primPoly : BitVec 9
  alpha : Byte
  fmttab : List (BitVec 15)
  cap : List CapRecord
deriving DecidableEq, Repr, Inhabited

/-- The memories whose contents are unspecified after reset and after SRST (10_state.md R42). -/
inductive FreeSpace where
  | cw
  | blk
  | syn
deriving DecidableEq, Repr

/-- FREE VALUE (log 1): the byte an element of `CW`, `BLK` or `SYN` holds when nothing has written it since the
reset or SRST that made `seed` (10_state.md R43). Nothing in Lean can evaluate it. -/
opaque Config.freeByte : (space : FreeSpace) → (seed : Nat) → (index : Nat) → Byte

/-- FREE VALUE (log 1): the code of a `GRID` cell that nothing has written, one of the three legal ones
(10_state.md R42, R43). -/
opaque Config.freeCellCode : (seed : Nat) → (index : Nat) → Fin 3

/-- FREE VALUE (log 2): the seed of the unspecified contents that a reset or SRST leaves. It may depend on what
the memories held before, so leaving them as they were, clearing them and scrambling them are all covered
(46_sequencing.md R144). -/
opaque Config.reseed : (seed : Nat) → (contents : List (List Host.Cell)) → Nat

end Sys2Proof
end

