-- ==== Sys2Proof/Machine/Tables.lean ====
section
/-!
DEFINITION. The default contents of the named parameters (15_rom_tables.md R47, R50; 00_scope.md R6), copied from the
tables the spec prints. Laws/Tables.lean holds the spec's generating rules and that these contents obey them.
-/

namespace Sys2Proof

/-- The default `FMTTAB`, entries 0 to 31 (15_rom_tables.md R47). -/
def defaultFmttab : List (BitVec 15) :=
  [0x5412, 0x5125, 0x5E7C, 0x5B4B, 0x45F9, 0x40CE, 0x4F97, 0x4AA0,
   0x77C4, 0x72F3, 0x7DAA, 0x789D, 0x662F, 0x6318, 0x6C41, 0x6976,
   0x1689, 0x13BE, 0x1CE7, 0x19D0, 0x0762, 0x0255, 0x0D0C, 0x083B,
   0x355F, 0x3068, 0x3F31, 0x3A06, 0x24B4, 0x2183, 0x2EDA, 0x2BED]

/-- The default records of versions 1 to 10 (15_rom_tables.md R50). -/
def defaultCap1 : List CapRecord := [
  ⟨1, 26, 19, 0, 0, 0⟩, ⟨1, 26, 16, 0, 0, 0⟩, ⟨1, 26, 13, 0, 0, 0⟩, ⟨1, 26, 9, 0, 0, 0⟩,
  ⟨1, 44, 34, 0, 0, 0⟩, ⟨1, 44, 28, 0, 0, 0⟩, ⟨1, 44, 22, 0, 0, 0⟩, ⟨1, 44, 16, 0, 0, 0⟩,
  ⟨1, 70, 55, 0, 0, 0⟩, ⟨1, 70, 44, 0, 0, 0⟩, ⟨2, 35, 17, 0, 0, 0⟩, ⟨2, 35, 13, 0, 0, 0⟩,
  ⟨1, 100, 80, 0, 0, 0⟩, ⟨2, 50, 32, 0, 0, 0⟩, ⟨2, 50, 24, 0, 0, 0⟩, ⟨4, 25, 9, 0, 0, 0⟩,
  ⟨1, 134, 108, 0, 0, 0⟩, ⟨2, 67, 43, 0, 0, 0⟩, ⟨2, 33, 15, 2, 34, 16⟩, ⟨2, 33, 11, 2, 34, 12⟩,
  ⟨2, 86, 68, 0, 0, 0⟩, ⟨4, 43, 27, 0, 0, 0⟩, ⟨4, 43, 19, 0, 0, 0⟩, ⟨4, 43, 15, 0, 0, 0⟩,
  ⟨2, 98, 78, 0, 0, 0⟩, ⟨4, 49, 31, 0, 0, 0⟩, ⟨2, 32, 14, 4, 33, 15⟩, ⟨4, 39, 13, 1, 40, 14⟩,
  ⟨2, 121, 97, 0, 0, 0⟩, ⟨2, 60, 38, 2, 61, 39⟩, ⟨4, 40, 18, 2, 41, 19⟩, ⟨4, 40, 14, 2, 41, 15⟩,
  ⟨2, 146, 116, 0, 0, 0⟩, ⟨3, 58, 36, 2, 59, 37⟩, ⟨4, 36, 16, 4, 37, 17⟩, ⟨4, 36, 12, 4, 37, 13⟩,
  ⟨2, 86, 68, 2, 87, 69⟩, ⟨4, 69, 43, 1, 70, 44⟩, ⟨6, 43, 19, 2, 44, 20⟩, ⟨6, 43, 15, 2, 44, 16⟩]

/-- The default records of versions 11 to 20 (15_rom_tables.md R50). -/
def defaultCap11 : List CapRecord := [
  ⟨4, 101, 81, 0, 0, 0⟩, ⟨1, 80, 50, 4, 81, 51⟩, ⟨4, 50, 22, 4, 51, 23⟩, ⟨3, 36, 12, 8, 37, 13⟩,
  ⟨2, 116, 92, 2, 117, 93⟩, ⟨6, 58, 36, 2, 59, 37⟩, ⟨4, 46, 20, 6, 47, 21⟩, ⟨7, 42, 14, 4, 43, 15⟩,
  ⟨4, 133, 107, 0, 0, 0⟩, ⟨8, 59, 37, 1, 60, 38⟩, ⟨8, 44, 20, 4, 45, 21⟩, ⟨12, 33, 11, 4, 34, 12⟩,
  ⟨3, 145, 115, 1, 146, 116⟩, ⟨4, 64, 40, 5, 65, 41⟩, ⟨11, 36, 16, 5, 37, 17⟩, ⟨11, 36, 12, 5, 37, 13⟩,
  ⟨5, 109, 87, 1, 110, 88⟩, ⟨5, 65, 41, 5, 66, 42⟩, ⟨5, 54, 24, 7, 55, 25⟩, ⟨11, 36, 12, 7, 37, 13⟩,
  ⟨5, 122, 98, 1, 123, 99⟩, ⟨7, 73, 45, 3, 74, 46⟩, ⟨15, 43, 19, 2, 44, 20⟩, ⟨3, 45, 15, 13, 46, 16⟩,
  ⟨1, 135, 107, 5, 136, 108⟩, ⟨10, 74, 46, 1, 75, 47⟩, ⟨1, 50, 22, 15, 51, 23⟩, ⟨2, 42, 14, 17, 43, 15⟩,
  ⟨5, 150, 120, 1, 151, 121⟩, ⟨9, 69, 43, 4, 70, 44⟩, ⟨17, 50, 22, 1, 51, 23⟩, ⟨2, 42, 14, 19, 43, 15⟩,
  ⟨3, 141, 113, 4, 142, 114⟩, ⟨3, 70, 44, 11, 71, 45⟩, ⟨17, 47, 21, 4, 48, 22⟩, ⟨9, 39, 13, 16, 40, 14⟩,
  ⟨3, 135, 107, 5, 136, 108⟩, ⟨3, 67, 41, 13, 68, 42⟩, ⟨15, 54, 24, 5, 55, 25⟩, ⟨15, 43, 15, 10, 44, 16⟩]

/-- The default records of versions 21 to 30 (15_rom_tables.md R50). -/
def defaultCap21 : List CapRecord := [
  ⟨4, 144, 116, 4, 145, 117⟩, ⟨17, 68, 42, 0, 0, 0⟩, ⟨17, 50, 22, 6, 51, 23⟩, ⟨19, 46, 16, 6, 47, 17⟩,
  ⟨2, 139, 111, 7, 140, 112⟩, ⟨17, 74, 46, 0, 0, 0⟩, ⟨7, 54, 24, 16, 55, 25⟩, ⟨34, 37, 13, 0, 0, 0⟩,
  ⟨4, 151, 121, 5, 152, 122⟩, ⟨4, 75, 47, 14, 76, 48⟩, ⟨11, 54, 24, 14, 55, 25⟩, ⟨16, 45, 15, 14, 46, 16⟩,
  ⟨6, 147, 117, 4, 148, 118⟩, ⟨6, 73, 45, 14, 74, 46⟩, ⟨11, 54, 24, 16, 55, 25⟩, ⟨30, 46, 16, 2, 47, 17⟩,
  ⟨8, 132, 106, 4, 133, 107⟩, ⟨8, 75, 47, 13, 76, 48⟩, ⟨7, 54, 24, 22, 55, 25⟩, ⟨22, 45, 15, 13, 46, 16⟩,
  ⟨10, 142, 114, 2, 143, 115⟩, ⟨19, 74, 46, 4, 75, 47⟩, ⟨28, 50, 22, 6, 51, 23⟩, ⟨33, 46, 16, 4, 47, 17⟩,
  ⟨8, 152, 122, 4, 153, 123⟩, ⟨22, 73, 45, 3, 74, 46⟩, ⟨8, 53, 23, 26, 54, 24⟩, ⟨12, 45, 15, 28, 46, 16⟩,
  ⟨3, 147, 117, 10, 148, 118⟩, ⟨3, 73, 45, 23, 74, 46⟩, ⟨4, 54, 24, 31, 55, 25⟩, ⟨11, 45, 15, 31, 46, 16⟩,
  ⟨7, 146, 116, 7, 147, 117⟩, ⟨21, 73, 45, 7, 74, 46⟩, ⟨1, 53, 23, 37, 54, 24⟩, ⟨19, 45, 15, 26, 46, 16⟩,
  ⟨5, 145, 115, 10, 146, 116⟩, ⟨19, 75, 47, 10, 76, 48⟩, ⟨15, 54, 24, 25, 55, 25⟩, ⟨23, 45, 15, 25, 46, 16⟩]

/-- The default records of versions 31 to 40 (15_rom_tables.md R50). -/
def defaultCap31 : List CapRecord := [
  ⟨13, 145, 115, 3, 146, 116⟩, ⟨2, 74, 46, 29, 75, 47⟩, ⟨42, 54, 24, 1, 55, 25⟩, ⟨23, 45, 15, 28, 46, 16⟩,
  ⟨17, 145, 115, 0, 0, 0⟩, ⟨10, 74, 46, 23, 75, 47⟩, ⟨10, 54, 24, 35, 55, 25⟩, ⟨19, 45, 15, 35, 46, 16⟩,
  ⟨17, 145, 115, 1, 146, 116⟩, ⟨14, 74, 46, 21, 75, 47⟩, ⟨29, 54, 24, 19, 55, 25⟩, ⟨11, 45, 15, 46, 46, 16⟩,
  ⟨13, 145, 115, 6, 146, 116⟩, ⟨14, 74, 46, 23, 75, 47⟩, ⟨44, 54, 24, 7, 55, 25⟩, ⟨59, 46, 16, 1, 47, 17⟩,
  ⟨12, 151, 121, 7, 152, 122⟩, ⟨12, 75, 47, 26, 76, 48⟩, ⟨39, 54, 24, 14, 55, 25⟩, ⟨22, 45, 15, 41, 46, 16⟩,
  ⟨6, 151, 121, 14, 152, 122⟩, ⟨6, 75, 47, 34, 76, 48⟩, ⟨46, 54, 24, 10, 55, 25⟩, ⟨2, 45, 15, 64, 46, 16⟩,
  ⟨17, 152, 122, 4, 153, 123⟩, ⟨29, 74, 46, 14, 75, 47⟩, ⟨49, 54, 24, 10, 55, 25⟩, ⟨24, 45, 15, 46, 46, 16⟩,
  ⟨4, 152, 122, 18, 153, 123⟩, ⟨13, 74, 46, 32, 75, 47⟩, ⟨48, 54, 24, 14, 55, 25⟩, ⟨42, 45, 15, 32, 46, 16⟩,
  ⟨20, 147, 117, 4, 148, 118⟩, ⟨40, 75, 47, 7, 76, 48⟩, ⟨43, 54, 24, 22, 55, 25⟩, ⟨10, 45, 15, 67, 46, 16⟩,
  ⟨19, 148, 118, 6, 149, 119⟩, ⟨18, 75, 47, 31, 76, 48⟩, ⟨34, 54, 24, 34, 55, 25⟩, ⟨20, 45, 15, 61, 46, 16⟩]

/-- The default `CAP`: versions 1 to 40, within a version L, M, Q, H (15_rom_tables.md R50; storage order log 9). -/
def defaultCap : List CapRecord :=
  defaultCap1 ++ defaultCap11 ++ defaultCap21 ++ defaultCap31

/-- The defaults of 00_scope.md R6: `PRIM_POLY = 0x11D`, `ALPHA = 0x02` (40_field_and_bit_primitives.md R84). -/
def defaultRawParams : RawParams where
  primPoly := 0x11D
  alpha := 0x02
  fmttab := defaultFmttab
  cap := defaultCap

end Sys2Proof
end

