-- ==== Sys2Proof/Machine/Field.lean ====
section
/-!
DEFINITION. The field and bit primitives the commands are built from (40_field_and_bit_primitives.md) and the
well-formedness of the named parameters (15_rom_tables.md R49, 40_field_and_bit_primitives.md R84).
-/

namespace Sys2Proof

/-! ## GF(256) -/

/-- Addition, and subtraction, of field elements (40_field_and_bit_primitives.md R85). -/
def gfAdd (a b : Byte) : Byte := a ^^^ b

/-- The carry-less product of two bytes, a 15-bit value (40_field_and_bit_primitives.md R86, first loop). -/
def clProduct (a b : Byte) : BitVec 15 :=
  [0, 1, 2, 3, 4, 5, 6, 7].foldl (fun p i => if b.getLsbD i then p ^^^ (a.setWidth 15 <<< i) else p) 0

/-- Reduction by the defining polynomial (40_field_and_bit_primitives.md R86, second loop). -/
def gfReduce (poly : BitVec 9) (p : BitVec 15) : BitVec 15 :=
  [14, 13, 12, 11, 10, 9, 8].foldl
    (fun p i => if p.getLsbD i then p ^^^ (poly.setWidth 15 <<< (i - 8)) else p) p

/-- Multiplication of field elements (40_field_and_bit_primitives.md R86). -/
def gfMul (π : RawParams) (a b : Byte) : Byte := (gfReduce π.primPoly (clProduct a b)).setWidth 8

/-- Powers of the primitive element (40_field_and_bit_primitives.md R87). -/
def apow (π : RawParams) : Nat → Byte
  | 0 => 0x01
  | e + 1 => gfMul π (apow π e) π.alpha

/-- The inverse of a non-zero element (40_field_and_bit_primitives.md R88), computed as its 254th power: the
non-zero elements are the 255 powers of `ALPHA`, so each has 255th power 1 (R87; DEDUCED, log 7). -/
def gfInv (π : RawParams) (a : Byte) : Byte :=
  let a2 := gfMul π a a
  let a4 := gfMul π a2 a2
  let a8 := gfMul π a4 a4
  let a16 := gfMul π a8 a8
  let a32 := gfMul π a16 a16
  let a64 := gfMul π a32 a32
  let a128 := gfMul π a64 a64
  gfMul π a2 (gfMul π a4 (gfMul π a8 (gfMul π a16 (gfMul π a32 (gfMul π a64 a128)))))

/-- The value of the polynomial with coefficient list `P` (lowest first) at `z` (40_field_and_bit_primitives.md R90),
by Horner's rule (log 7). -/
def polyEval (π : RawParams) (P : List Byte) (z : Byte) : Byte :=
  P.foldr (fun c acc => gfAdd c (gfMul π acc z)) 0

/-! ## The read-only field tables -/

/-- `GFEXP` (15_rom_tables.md R45). -/
def gfexp (π : RawParams) (e : Nat) : Byte :=
  if e = 0 then 0 else apow π e

/-- The exponent in `e .. e + fuel - 1` whose power is `a`, where `x = apow e`; 0 when there is none. -/
def gflogFrom (π : RawParams) (a : Byte) : (fuel : Nat) → (e : Nat) → (x : Byte) → Nat
  | 0, _, _ => 0
  | fuel + 1, e, x => if x = a then e else gflogFrom π a fuel (e + 1) (gfMul π x π.alpha)

/-- `GFLOG` (15_rom_tables.md R46). -/
def gflog (π : RawParams) (a : Byte) : Nat :=
  if a = 0 then 0 else gflogFrom π a 255 1 π.alpha

/-! ## Bits and byte sequences -/

/-- The number of one bits of a 15-bit value (40_field_and_bit_primitives.md R93). -/
def popcount (v : BitVec 15) : Nat :=
  (List.range 15).countP fun i => v.getLsbD i

/-- The number of positions at which two byte sequences differ (40_field_and_bit_primitives.md R95). -/
def dist (r c : List Byte) : Nat :=
  (r.zip c).countP fun p => decide (p.1 ≠ p.2)

/-! ## The capacity table -/

/-- The symbolic level of a two-bit level field (30_encoding.md R78). -/
def levelOf (lf : BitVec 2) : Level :=
  match lf.toNat with
  | 0 => .m
  | 1 => .h
  | 2 => .l
  | _ => .q

/-- The place of a level among the four records of a version (log 9). -/
def levelIndex : Level → Nat
  | .l => 0
  | .m => 1
  | .q => 2
  | .h => 3

/-- `CAP(v, level)` for `1 <= v <= 40` (15_rom_tables.md R49). -/
def capRecord (π : RawParams) (v : Nat) (level : Level) : CapRecord :=
  π.cap.getD (4 * (v - 1) + levelIndex level) ⟨0, 0, 0, 0, 0, 0⟩

/-! ## Well-formed parameters -/

/-- What every rule assumes of a record of `CAP` (15_rom_tables.md R49). -/
def CapRecord.wf (c : CapRecord) : Bool :=
  decide (1 ≤ c.c1) && decide (c.c1 + c.c2 ≤ 128) &&
  decide (1 ≤ c.k1) && decide (c.k1 ≤ c.n1) && decide (c.n1 ≤ 255) && decide (c.n1 - c.k1 ≤ 32) &&
  (if c.c2 = 0 then decide (c.n2 = 0) && decide (c.k2 = 0)
   else decide (1 ≤ c.k2) && decide (c.k2 ≤ c.n2) && decide (c.n2 ≤ 255) && decide (c.n2 - c.k2 ≤ 32)) &&
  decide (c.c1 * c.n1 + c.c2 * c.n2 ≤ 4096)

/-- The set of the first `count` powers of `ALPHA` from `x` on, as a number whose bit `a` says that byte `a` occurs. -/
def powerSet (π : RawParams) : (count : Nat) → (x : Byte) → (seen : Nat) → Nat
  | 0, _, seen => seen
  | count + 1, x, seen => powerSet π count (gfMul π x π.alpha) (seen ||| (1 <<< x.toNat))

/-- `ALPHA` is primitive: `apow(0)` to `apow(254)` are the 255 distinct non-zero bytes
(40_field_and_bit_primitives.md R84). This makes `PRIM_POLY` irreducible (DEDUCED, log 5). -/
def alphaPrimitive (π : RawParams) : Bool :=
  decide (powerSet π 255 1 0 = 2 ^ 256 - 2)

/-- Well-formed parameters (15_rom_tables.md R49, 40_field_and_bit_primitives.md R84; 93_implementation_defined.md
U11, U13). -/
def RawParams.wf (π : RawParams) : Bool :=
  π.primPoly.getLsbD 8 && decide (π.fmttab.length = 32) && decide (π.cap.length = 160) &&
  π.cap.all CapRecord.wf && alphaPrimitive π

end Sys2Proof
end

