-- ==== Sys2Proof/Machine/Params.lean ====
section
/-!
DEFINITION. The named parameters of a block, which are well-formed by construction (93_implementation_defined.md U11,
U13; log 5), and their defaults (00_scope.md R6).
-/

namespace Sys2Proof

/-- The named parameters of a block. The rules of the spec assume that they are well-formed, and a block with others
is refused: it cannot be built (93_implementation_defined.md U11, U13; log 5). -/
structure Params where
  raw : RawParams
  ok : raw.wf = true
deriving DecidableEq, Repr

/-- The defaults of 00_scope.md R6. -/
def defaultParams : Params where
  raw := defaultRawParams
  ok := by decide +kernel

end Sys2Proof
end

