-- ==== Sys2Proof/Machine/State.lean ====
section
/-!
DEFINITION. The state of the QRD block (10_state.md), the reasons a step can stop, the host's acts (20_memory.md R60,
R61) and the state after reset (10_state.md R42). Plain data throughout.
-/

namespace Sys2Proof.Machine

/-- A memory: the elements written since the last reset or SRST, as (index, value) pairs with strictly rising
indices. An element that is not listed holds its free value (log 1), which nothing in Lean can compare with a byte, so
every written element is listed. -/
abbrev Memory := List Host.Cell

/-- The canonical form of a memory: strictly rising indices. -/
abbrev Memory.wf (m : Memory) : Prop :=
  m.Pairwise fun x y => x.1 < y.1

/-- An act of the host (20_memory.md R52, R60, R61; 70_reset_and_hazards.md R168). -/
inductive HostEvent where
  /-- The host reads the element at an address. -/
  | read (a : Addr)
  /-- The host writes a word to an address. -/
  | write (a : Addr) (v : Word)
  /-- The one reset is delivered from outside. -/
  | reset
deriving DecidableEq, Repr

/-- No step faults: every failure the spec describes is recorded in the state (60_exceptions.md R160), so this type
has no constructor. -/
inductive Fault where
deriving DecidableEq, Repr

/-- Why a step is refused. No step of this model is: every word written to `CMD` has a meaning. -/
inductive Refusal where
  /-- An instruction without a meaning, by its mnemonic. Raised by a rejected arm of `exec`; no arm is. Safe. -/
  | notModelled (mnemonic : String)
deriving DecidableEq, Repr

/-- The state of one QRD block (10_state.md; log 12), and at the end the model's own fields. -/
structure State where
  /-- `STATUS.ERR` (10_state.md R19). -/
  err : BitVec 4
  /-- `STATUS.STAGE` (10_state.md R20). -/
  stage : BitVec 3
  /-- `STATUS.FMT_VALID` (10_state.md R19). -/
  fmtValid : BitVec 1
  /-- `STATUS.FMT_COPY` (10_state.md R19). -/
  fmtCopy : BitVec 1
  /-- `ERRINFO` (10_state.md R21). -/
  errInfo : BitVec 16
  /-- `VERSION` (10_state.md R22). -/
  version : BitVec 6
  /-- `LEVEL`, the level field (10_state.md R23). -/
  level : BitVec 2
  /-- `MASK` (10_state.md R24). -/
  mask : BitVec 3
  /-- `FMT_RAW0` (10_state.md R25). -/
  fmtRaw0 : BitVec 15
  /-- `FMT_RAW1` (10_state.md R25). -/
  fmtRaw1 : BitVec 15
  /-- `FMT_WORD` (10_state.md R26). -/
  fmtWord : BitVec 15
  /-- `CWCNT` (10_state.md R28). -/
  cwCnt : BitVec 13
  /-- `GRID`, cell codes by `256 * y + x` (10_state.md R33, 20_memory.md R55). -/
  grid : Memory
  /-- `CW` by `p` (10_state.md R34, 20_memory.md R56). -/
  cw : Memory
  /-- `BLK` by `256 * b + j` (10_state.md R35, 20_memory.md R57). -/
  blk : Memory
  /-- `SYN` by `32 * b + i` (10_state.md R36, 20_memory.md R58). -/
  syn : Memory
  /-- `BSTAT` (10_state.md R37). -/
  bstat : Vector Byte 128
  /-- The named parameters, which generate the read-only tables; no step writes them (10_state.md R38, R41;
  log 4). -/
  params : Params
  /-- The model's own: which unspecified contents the memories hold (10_state.md R43; log 2). -/
  seed : Nat
  /-- The model's own: the host's acts still to come, oldest first (20_memory.md R67; log 3). -/
  pending : List HostEvent
  /-- The model's own: what the host port answered to the last access, a word for a read (log 3). -/
  reply : Option Word
deriving DecidableEq, Repr

/-- The machine right after reset (10_state.md R42, 70_reset_and_hazards.md R168), with the default parameters of
00_scope.md R6. The memories list nothing: their contents are unspecified (R43). -/
def State.reset : State where
  err := 0
  stage := 0
  fmtValid := 0
  fmtCopy := 0
  errInfo := 0
  version := 0
  level := 0
  mask := 0
  fmtRaw0 := 0
  fmtRaw1 := 0
  fmtWord := 0
  cwCnt := 0
  grid := []
  cw := []
  blk := []
  syn := []
  bstat := Vector.replicate 128 0
  params := defaultParams
  seed := 0
  pending := []
  reply := none

end Sys2Proof.Machine
end

