-- ==== Sys2Proof/Machine/Flags.lean ====
section
/-!
DEFINITION. The flags: the fields of `STATUS` as one word, the failure codes, the stage numbers and the per-block
status byte (10_state.md R19, R20, R37; 60_exceptions.md R150).
-/

namespace Sys2Proof.Machine

/-- The failure kinds (60_exceptions.md R150). The block raises the last five; the first two belong to stages outside
it and keep their codes (R151). -/
inductive FailKind where
  | geometryNotFound
  | versionUndecodable
  | formatUndecodable
  | moduleTraversalFailure
  | blockUncorrectable
  | illegalCommand
  | badParameter
deriving DecidableEq, Repr

/-- The code of a failure kind, the value of `STATUS.ERR` (60_exceptions.md R150). -/
def failCode : FailKind → BitVec 4
  | .geometryNotFound => 1
  | .versionUndecodable => 2
  | .formatUndecodable => 3
  | .moduleTraversalFailure => 4
  | .blockUncorrectable => 5
  | .illegalCommand => 8
  | .badParameter => 9

/-- `STATUS` as the host reads it: `FMT_COPY[9]`, `FMT_VALID[8]`, zero in [7], `STAGE[6:4]`, `ERR[3:0]`
(10_state.md R19). -/
def statusWord (s : State) : Word :=
  0#22 ++ s.fmtCopy ++ s.fmtValid ++ 0#1 ++ s.stage ++ s.err

/-- A stage starts: `STATUS.STAGE` takes its number (10_state.md R20). -/
def setStage (n : BitVec 3) (s : State) : State := { s with stage := n }

/-- `BSTAT` with `ST = CLEAN` (10_state.md R37). -/
def bstatClean : Byte := 0x01

/-- `BSTAT` with `ST = DIRTY`, `FAIL = 0` (10_state.md R37). -/
def bstatDirty : Byte := 0x02

/-- `BSTAT` with `ST = DIRTY`, `FAIL = 1` (10_state.md R37, 45_reed_solomon.md R134). -/
def bstatFailed : Byte := 0x06

/-- `BSTAT` with `ST = FIXED` and `NERR = nerr` (10_state.md R37, 45_reed_solomon.md R134). -/
def bstatFixed (nerr : Nat) : Byte := BitVec.ofNat 5 nerr ++ 0b011#3

/-- The field `ST` of a status byte (10_state.md R37). -/
def bstatST (v : Byte) : BitVec 2 := v.extractLsb' 0 2

/-- The field `FAIL` of a status byte (10_state.md R37). -/
def bstatFAIL (v : Byte) : BitVec 1 := v.extractLsb' 2 1

/-- The field `NERR` of a status byte (10_state.md R37). -/
def bstatNERR (v : Byte) : BitVec 5 := v.extractLsb' 3 5

end Sys2Proof.Machine
end

