-- ==== Sys2Proof/Machine/Ops.lean ====
section
/-!
DEFINITION. The named operations over the memories and the registers, failure entry (60_exceptions.md R160) and, beside
it, the return from a failure (R162): the reset that SRST performs.
-/

namespace Sys2Proof.Machine

/-! ## One memory -/

/-- The element at an index: the listed value, else the free one. -/
def Memory.read (free : Nat → Byte) : Memory → Nat → Byte
  | [], a => free a
  | (b, v) :: rest, a => if a = b then v else Memory.read free rest a

/-- Write one element, keeping the indices strictly rising. -/
def Memory.write : Memory → Nat → Byte → Memory
  | [], a, v => [(a, v)]
  | (b, w) :: rest, a, v =>
    if a < b then (a, v) :: (b, w) :: rest
    else if a = b then (a, v) :: rest
    else (b, w) :: Memory.write rest a v

/-! ## Cells -/

/-- The stored code of a cell (30_encoding.md R80). -/
def cellCode : Cell → Byte
  | .dataLight => 0
  | .dataDark => 1
  | .function => 2

/-- The cell a two-bit code stands for; 3 is `function` (30_encoding.md R80). -/
def cellOfCode (v : BitVec 2) : Cell :=
  match v.toNat with
  | 0 => .dataLight
  | 1 => .dataDark
  | _ => .function

/-- The other colour of a data cell; a function cell has none (42_mask.md R105, R109). -/
def flipCell : Cell → Cell
  | .dataLight => .dataDark
  | .dataDark => .dataLight
  | .function => .function

/-! ## The four unspecified memories -/

/-- What a `GRID` cell that nothing has written holds, as its code (10_state.md R43; log 1). -/
def freeGrid (seed a : Nat) : Byte := BitVec.ofNat 8 (Config.freeCellCode seed a).val

/-- The code of the `GRID` cell at an index. -/
def readGrid (s : State) (a : Nat) : Byte := Memory.read (freeGrid s.seed) s.grid a

/-- `GRID[y][x]` (20_memory.md R55). -/
def gridCell (s : State) (x y : Nat) : Cell :=
  cellOfCode ((readGrid s (256 * y + x)).extractLsb' 0 2)

/-- `GRID[y][x] <- c`. -/
def setGridCell (x y : Nat) (c : Cell) (s : State) : State :=
  { s with grid := Memory.write s.grid (256 * y + x) (cellCode c) }

/-- `CW[p]` (20_memory.md R56). -/
def readCw (s : State) (p : Nat) : Byte := Memory.read (Config.freeByte .cw s.seed) s.cw p

/-- `CW[p] <- v`. -/
def setCw (p : Nat) (v : Byte) (s : State) : State := { s with cw := Memory.write s.cw p v }

/-- The `BLK` byte at an index. -/
def readBlk (s : State) (a : Nat) : Byte := Memory.read (Config.freeByte .blk s.seed) s.blk a

/-- `BLK[b][j]` (20_memory.md R57). -/
def blkByte (s : State) (b j : Nat) : Byte := readBlk s (256 * b + j)

/-- `BLK[b][j] <- v`. -/
def setBlkByte (b j : Nat) (v : Byte) (s : State) : State :=
  { s with blk := Memory.write s.blk (256 * b + j) v }

/-- The `SYN` byte at an index. -/
def readSyn (s : State) (a : Nat) : Byte := Memory.read (Config.freeByte .syn s.seed) s.syn a

/-- `SYN[b][i]` (20_memory.md R58). -/
def synByte (s : State) (b i : Nat) : Byte := readSyn s (32 * b + i)

/-- `SYN[b][i] <- v`. -/
def setSynByte (b i : Nat) (v : Byte) (s : State) : State :=
  { s with syn := Memory.write s.syn (32 * b + i) v }

/-- `BLK[b][0 .. n-1]`, the received word of a block (45_reed_solomon.md R127). -/
def blkRow (s : State) (b n : Nat) : List Byte := (List.range n).map (blkByte s b)

/-- `BLK[b][from ..] <- vs`, in index order. -/
def setBlkFrom (b : Nat) : (start : Nat) → (vs : List Byte) → State → State
  | _, [], s => s
  | j, v :: vs, s => setBlkFrom b (j + 1) vs (setBlkByte b j v s)

/-- `SYN[b][from ..] <- vs`, in index order. -/
def setSynFrom (b : Nat) : (start : Nat) → (vs : List Byte) → State → State
  | _, [], s => s
  | i, v :: vs, s => setSynFrom b (i + 1) vs (setSynByte b i v s)

/-! ## The block status -/

/-- `BSTAT[b]` (10_state.md R37). -/
def bstatOf (s : State) (b : Nat) : Byte := s.bstat[b]?.getD 0

/-- `BSTAT[b] <- v`. -/
def setBstat (b : Nat) (v : Byte) (s : State) : State := { s with bstat := s.bstat.setIfInBounds b v }

/-- Every `BSTAT[b] <- 0` (44_deinterleave.md R121, 46_sequencing.md R144). -/
def clearBstat (s : State) : State := { s with bstat := Vector.replicate 128 0 }

/-! ## Failure entry and return -/

/-- How a command's body stands: it goes on with a state, or a `raise` has ended the command (60_exceptions.md R160). -/
inductive Flow where
  | goesOn (s : State)
  | ended (s : State)
deriving DecidableEq, Repr

/-- The state a body leaves, whether or not it was ended. -/
def Flow.state : Flow → State
  | .goesOn s => s
  | .ended s => s

/-- The next part of a command, which runs only when no `raise` has ended the command (60_exceptions.md R160). -/
def Flow.andThen (f : Flow) (g : State → Flow) : Flow :=
  match f with
  | .goesOn s => g s
  | .ended s => .ended s

/-- What failure entry writes: `STATUS.ERR` and `ERRINFO`, and nothing else (60_exceptions.md R160). -/
def recordFailure (k : FailKind) (info : Nat) (s : State) : State :=
  { s with err := failCode k, errInfo := BitVec.ofNat 16 info }

/-- `raise K(info)`: record the failure and end the command (60_exceptions.md R160). -/
def raiseFailure (k : FailKind) (info : Nat) (s : State) : Flow := .ended (recordFailure k info s)

/-- What reset and SRST do (10_state.md R42; 46_sequencing.md R144; 70_reset_and_hazards.md R168, R169): every register
and every `BSTAT` to its reset value, the memories unspecified, which is also the only return from a failure
(60_exceptions.md R162). The read-only tables are not affected, nor is what the host still has to do. -/
def resetBlock (s : State) : State :=
  { State.reset with
    params := s.params
    seed := Config.reseed s.seed [s.grid, s.cw, s.blk, s.syn]
    pending := s.pending
    reply := s.reply }

end Sys2Proof.Machine
end

