-- ==== Sys2Proof/Machine/Operands.lean ====
section
/-!
DEFINITION. What the commands take: the derived quantities of `VERSION`, `LEVEL` and `CAP` (00_scope.md R13) and the
checks of the version and of the block operand (60_exceptions.md R156).
-/

namespace Sys2Proof.Machine

/-- `valid_version` (00_scope.md R13). -/
def validVersion (s : State) : Bool := decide (1 ≤ s.version.toNat ∧ s.version.toNat ≤ 40)

/-- `N`, the module count (00_scope.md R13). -/
def moduleCount (s : State) : Nat := 17 + 4 * s.version.toNat

/-- The capacity record of the current version and level (00_scope.md R13). -/
def capOf (s : State) : CapRecord := capRecord s.params.raw s.version.toNat (levelOf s.level)

/-- `B`, the number of blocks (00_scope.md R13). -/
def blockCount (c : CapRecord) : Nat := c.c1 + c.c2

/-- `total(b)`: group 1 has the lower indices (00_scope.md R13, 44_deinterleave.md R122). -/
def blockTotal (c : CapRecord) (b : Nat) : Nat := if b < c.c1 then c.n1 else c.n2

/-- `data(b)` (00_scope.md R13). -/
def blockData (c : CapRecord) (b : Nat) : Nat := if b < c.c1 then c.k1 else c.k2

/-- `t(b)`, the error-correcting capacity (00_scope.md R13; the floor, 92_eei_decisions.md D19). -/
def blockCapacity (c : CapRecord) (b : Nat) : Nat := (blockTotal c b - blockData c b) / 2

/-- `T`, the total of codewords (00_scope.md R13). -/
def totalCodewords (c : CapRecord) : Nat := c.c1 * c.n1 + c.c2 * c.n2

/-- `NDATA`, the total of data codewords (00_scope.md R13). -/
def totalData (c : CapRecord) : Nat := c.c1 * c.k1 + c.c2 * c.k2

/-- The first check of a command that uses `VERSION`: BadParameter(1), before anything is written
(60_exceptions.md R156). -/
def checkVersion (s : State) (body : State → Flow) : Flow :=
  if validVersion s then body s else raiseFailure .badParameter 1 s

/-- The check of the block operand, after the version's: BadParameter(2) (60_exceptions.md R156). -/
def checkBlock (blk : Nat) (s : State) (body : State → Flow) : Flow :=
  if blk < blockCount (capOf s) then body s else raiseFailure .badParameter 2 s

end Sys2Proof.Machine
end

