-- ==== Sys2Proof/Machine/Deinterleave.lean ====
section
/-!
DEFINITION. Block deinterleave, the command DEINT (44_deinterleave.md).
-/

namespace Sys2Proof.Machine

/-- `while fill[b] = total(b): b <- (b + 1) mod B`, which takes at most `B` turns while a block has room
(44_deinterleave.md R121, 70_reset_and_hazards.md R178). -/
def skipFull (c : CapRecord) (fill : List Nat) : (fuel : Nat) → (b : Nat) → Nat
  | 0, b => b
  | fuel + 1, b =>
    if fill.getD b 0 = blockTotal c b then skipFull c fill fuel ((b + 1) % blockCount c) else b

/-- The working values of DEINT (44_deinterleave.md R121): the block in turn, the fill counters, the state. -/
structure Deal where
  b : Nat
  fill : List Nat
  s : State
deriving DecidableEq, Repr

/-- One byte of the stream: to the next block in turn that has room (44_deinterleave.md R121). -/
def dealByte (c : CapRecord) (d : Deal) (p : Nat) : Deal :=
  let b := skipFull c d.fill (blockCount c) d.b
  let j := d.fill.getD b 0
  { b := (b + 1) % blockCount c
    fill := d.fill.set b (j + 1)
    s := setBlkByte b j (readCw d.s p) d.s }

/-- The distribution of the whole stream (44_deinterleave.md R121). -/
def dealAll (c : CapRecord) (s : State) : State :=
  ((List.range (totalCodewords c)).foldl (dealByte c)
    { b := 0, fill := List.replicate (blockCount c) 0, s := s }).s

/-- The body of DEINT (44_deinterleave.md R121, R125). -/
def deintBody (s : State) : Flow :=
  checkVersion s fun s => .goesOn (dealAll (capOf s) (clearBstat (setStage 4 s)))

/-- `DEINT` (44_deinterleave.md R121). -/
def execDeint (s : State) : Host.Outcome State Fault Refusal := .next (deintBody s).state

end Sys2Proof.Machine
end

