-- ==== Sys2Proof/Machine/Extract.lean ====
section
/-!
DEFINITION. Codeword bit-stream extraction, the command EXTRACT (43_extract.md).
-/

namespace Sys2Proof.Machine

/-- The right columns of the column pairs from `col` on: down by two, 6 replaced by 5 after the decrement, until
column 0 is passed (43_extract.md R112, R113). -/
def rightColumns : (fuel : Nat) → (col : Nat) → List Nat
  | 0, _ => []
  | fuel + 1, col =>
    if col < 1 then [] else col :: rightColumns fuel (if col - 2 = 6 then 5 else col - 2)

/-- One column pair, bottom to top when `up`, right column before left in each row, as `(x, y)`
(43_extract.md R112, R113). -/
def sweepPair (n : Nat) (up : Bool) (col : Nat) : List (Nat × Nat) :=
  (List.range n).flatMap fun i =>
    let y := if up then n - 1 - i else i
    [(col, y), (col - 1, y)]

/-- The sweeps of the pairs, the direction turning after each (43_extract.md R112). -/
def sweepPairs (n : Nat) : (up : Bool) → (cols : List Nat) → List (Nat × Nat)
  | _, [] => []
  | up, col :: cols => sweepPair n up col ++ sweepPairs n (!up) cols

/-- The cells the walk looks at, in order: from the bottom of the rightmost pair, upward first (43_extract.md R113). -/
def zigzag (n : Nat) : List (Nat × Nat) := sweepPairs n true (rightColumns n (n - 1))

/-- The working values of EXTRACT (43_extract.md R112): `count`, `acc`, `nbits` and the stream written so far. -/
structure Walk where
  count : Nat
  acc : Byte
  nbits : Nat
  cw : Memory
deriving DecidableEq, Repr

/-- One data bit: dark is 1; the eighth bit of a codeword completes it, and it is stored while the count is below `T`
(43_extract.md R112, R113; 30_encoding.md R82). -/
def walkBit (t : Nat) (w : Walk) (dark : Bool) : Walk :=
  let acc := (w.acc <<< 1) ||| (if dark then 1#8 else 0#8)
  if w.nbits + 1 = 8 then
    { count := w.count + 1
      acc := 0
      nbits := 0
      cw := if w.count < t then Memory.write w.cw w.count acc else w.cw }
  else { w with acc := acc, nbits := w.nbits + 1 }

/-- One cell of the walk: a function cell gives no bit (43_extract.md R112). -/
def walkCell (s : State) (t : Nat) (w : Walk) (xy : Nat × Nat) : Walk :=
  match gridCell s xy.1 xy.2 with
  | .function => w
  | .dataDark => walkBit t w true
  | .dataLight => walkBit t w false

/-- The whole walk, past column 0 (43_extract.md R112). -/
def walk (s : State) (t : Nat) : Walk :=
  (zigzag (moduleCount s)).foldl (walkCell s t) { count := 0, acc := 0, nbits := 0, cw := s.cw }

/-- The body of EXTRACT (43_extract.md R112, R114, R116). Bits left over at the end are dropped (R115). -/
def extractBody (s : State) : Flow :=
  checkVersion s fun s =>
    let t := totalCodewords (capOf s)
    let s := setStage 3 s
    let w := walk s t
    let s := { s with cw := w.cw, cwCnt := BitVec.ofNat 13 (min w.count 0x1FFF) }
    if w.count ≠ t then raiseFailure .moduleTraversalFailure (min w.count 0xFFFF) s else .goesOn s

/-- `EXTRACT` (43_extract.md R112). -/
def execExtract (s : State) : Host.Outcome State Fault Refusal := .next (extractBody s).state

end Sys2Proof.Machine
end

