-- ==== Sys2Proof/Machine/Format.lean ====
section
/-!
DEFINITION. Format-information decode, the command FMTDEC (41_format_decode.md).
-/

namespace Sys2Proof.Machine

/-- The fixed constant a matched entry is XORed with (00_scope.md R5, 41_format_decode.md R97). -/
def fmtXor : BitVec 15 := 0x5412

/-- `FMTTAB[k]` (15_rom_tables.md R47). -/
def fmtEntry (π : RawParams) (k : Nat) : BitVec 15 := π.fmttab.getD k 0

/-- The first entry, in ascending order, whose distance from the raw word is below 4 (41_format_decode.md R98). -/
def fmtMatch (π : RawParams) (raw : BitVec 15) : Option Nat :=
  (List.range 32).find? fun k => decide (popcount (raw ^^^ fmtEntry π k) < 4)

/-- `accept(c, k)` (41_format_decode.md R99; the fields of the word, 30_encoding.md R81). -/
def fmtAccept (c : BitVec 1) (k : Nat) (s : State) : State :=
  let w := fmtEntry s.params.raw k ^^^ fmtXor
  { s with
    fmtWord := w
    level := w.extractLsb' 13 2
    mask := w.extractLsb' 10 3
    fmtValid := 1
    fmtCopy := c }

/-- The body of FMTDEC: the primary word, then the secondary, else FormatUndecodable(0) (41_format_decode.md R98,
R100). It does not look at `VERSION` (R101). -/
def fmtdecBody (s : State) : Flow :=
  let s := setStage 1 s
  match fmtMatch s.params.raw s.fmtRaw0 with
  | some k => .goesOn (fmtAccept 0 k s)
  | none =>
    match fmtMatch s.params.raw s.fmtRaw1 with
    | some k => .goesOn (fmtAccept 1 k s)
    | none => raiseFailure .formatUndecodable 0 s

/-- `FMTDEC` (41_format_decode.md R98). -/
def execFmtdec (s : State) : Host.Outcome State Fault Refusal := .next (fmtdecBody s).state

end Sys2Proof.Machine
end

