-- ==== Sys2Proof/Machine/Mask.lean ====
section
/-!
DEFINITION. Data-mask removal, the command UNMASK (42_mask.md).
-/

namespace Sys2Proof.Machine

/-- `maskflag(p, x, y)`, column `x`, row `y` (42_mask.md R106; a fixed table, log 8). -/
def maskflag (p : BitVec 3) (x y : Nat) : Bool :=
  match p.toNat with
  | 0 => (x + y) % 2 == 0
  | 1 => y % 2 == 0
  | 2 => x % 3 == 0
  | 3 => (x + y) % 3 == 0
  | 4 => (y / 2 + x / 3) % 2 == 0
  | 5 => (x * y) % 2 + (x * y) % 3 == 0
  | 6 => ((x * y) % 2 + (x * y) % 3) % 2 == 0
  | _ => ((x * y) % 3 + (x + y) % 2) % 2 == 0

/-- The cells of the `N` by `N` grid as `(x, y)`, row by row (42_mask.md R105). -/
def gridCells (n : Nat) : List (Nat × Nat) :=
  (List.range n).flatMap fun y => (List.range n).map fun x => (x, y)

/-- One cell of the loop: a data cell under the mask is flipped (42_mask.md R105). -/
def unmaskCell (s : State) (xy : Nat × Nat) : State :=
  let c := gridCell s xy.1 xy.2
  if c ≠ .function ∧ maskflag s.mask xy.1 xy.2 = true then setGridCell xy.1 xy.2 (flipCell c) s else s

/-- The body of UNMASK (42_mask.md R105, R108). -/
def unmaskBody (s : State) : Flow :=
  checkVersion s fun s => .goesOn ((gridCells (moduleCount s)).foldl unmaskCell (setStage 2 s))

/-- `UNMASK` (42_mask.md R105). -/
def execUnmask (s : State) : Host.Outcome State Fault Refusal := .next (unmaskBody s).state

end Sys2Proof.Machine
end

