-- ==== Sys2Proof/Machine/ReedSolomon.lean ====
section
/-!
DEFINITION. Reed-Solomon syndromes and correction, the commands SYND, RSCOR and RSALL (45_reed_solomon.md).
-/

namespace Sys2Proof.Machine

/-! ## Syndromes and the code -/

/-- `S_i(r)`: the value at `apow(i)` of the polynomial whose coefficient of `x^v` is `r[v]`
(45_reed_solomon.md R128). -/
def syndrome (π : RawParams) (r : List Byte) (i : Nat) : Byte := polyEval π r (apow π i)

/-- `S_0(r)` to `S_{2t-1}(r)` (45_reed_solomon.md R128, R129). -/
def syndromes (π : RawParams) (r : List Byte) (t : Nat) : List Byte :=
  (List.range (2 * t)).map (syndrome π r)

/-- Every syndrome is zero: `r` is a member of `Code(n, t)` (45_reed_solomon.md R130, R131). -/
def isMember (π : RawParams) (r : List Byte) (t : Nat) : Bool := (syndromes π r t).all (· == 0)

/-! ## The reference procedure (log 6) -/

/-- The coefficient of `x^j`; beyond the end of the list it is 0 (45_reed_solomon.md R136). -/
def coeff (P : List Byte) (j : Nat) : Byte := P.getD j 0

/-- The sum of `f 0` to `f (n - 1)` in the field (40_field_and_bit_primitives.md R90). -/
def gfSum (n : Nat) (f : Nat → Byte) : Byte := (List.range n).foldl (fun a i => gfAdd a (f i)) 0

/-- `C (+) f x^m P` (45_reed_solomon.md R136). -/
def addShifted (π : RawParams) (C P : List Byte) (f : Byte) (m : Nat) : List Byte :=
  (List.range (max C.length (P.length + m))).map fun j =>
    if j < m then coeff C j else gfAdd (coeff C j) (gfMul π f (coeff P (j - m)))

/-- The working values of step 1 (45_reed_solomon.md R136). -/
structure Locator where
  C : List Byte
  P : List Byte
  L : Nat
  m : Nat
  g : Byte
deriving DecidableEq, Repr

/-- One turn of step 1, for the syndrome of index `q` (45_reed_solomon.md R136). -/
def locatorStep (π : RawParams) (S : List Byte) (x : Locator) (q : Nat) : Locator :=
  let d := gfAdd (coeff S q) (gfSum x.L fun j => gfMul π (coeff x.C (j + 1)) (coeff S (q - (j + 1))))
  if d = 0 then { x with m := x.m + 1 }
  else
    let C := addShifted π x.C x.P (gfMul π d (gfInv π x.g)) x.m
    if 2 * x.L ≤ q then { C := C, P := x.C, L := q + 1 - x.L, m := 1, g := d }
    else { x with C := C, m := x.m + 1 }

/-- Drop the trailing zero coefficients (45_reed_solomon.md R136). -/
def trimZeros (P : List Byte) : List Byte := (P.reverse.dropWhile (· == 0)).reverse

/-- Step 1: the locator polynomial and its degree `L`, or nothing when the block is uncorrectable
(45_reed_solomon.md R136). -/
def locate (π : RawParams) (S : List Byte) (t : Nat) : Option (List Byte × Nat) :=
  let x := (List.range (2 * t)).foldl (locatorStep π S) { C := [1], P := [1], L := 0, m := 1, g := 1 }
  let C := trimZeros x.C
  if C.length ≠ x.L + 1 ∨ x.L > t then none else some (C, x.L)

/-- Step 2: the positions at whose inverse power the locator vanishes (45_reed_solomon.md R137). -/
def errorPositions (π : RawParams) (C : List Byte) (n : Nat) : List Nat :=
  (List.range n).filter fun v => polyEval π C (gfInv π (apow π v)) == 0

/-- The evaluator `W = S C mod x^(2t)` (45_reed_solomon.md R137, step 3). -/
def evaluator (π : RawParams) (S C : List Byte) (L t : Nat) : List Byte :=
  (List.range (2 * t)).map fun i =>
    gfSum (min i L + 1) fun j => gfMul π (coeff S (i - j)) (coeff C j)

/-- The formal derivative of the locator (45_reed_solomon.md R137, step 3). -/
def derivative (C : List Byte) (L : Nat) : List Byte :=
  (List.range L).map fun i => if i % 2 = 0 then coeff C (i + 1) else 0

/-- Step 3, for the positions in order: the corrected word, or nothing when a value cannot be had
(45_reed_solomon.md R137). -/
def correctValues (π : RawParams) (W C' : List Byte) : (E : List Nat) → (c : List Byte) → Option (List Byte)
  | [], c => some c
  | v :: E, c =>
    let z := gfInv π (apow π v)
    let dz := polyEval π C' z
    if dz = 0 then none
    else
      let e := gfMul π (gfMul π (apow π v) (polyEval π W z)) (gfInv π dz)
      if e = 0 then none else correctValues π W C' E (c.set v (gfAdd (coeff c v) e))

/-- The member of `Code(n, t)` within `t` bytes of `r`, if there is one, by steps 1 to 4 (45_reed_solomon.md R134, R136,
R137; log 6). -/
def nearestMember (π : RawParams) (r : List Byte) (t : Nat) : Option (List Byte) :=
  let S := syndromes π r t
  match locate π S t with
  | none => none
  | some (C, L) =>
    let E := errorPositions π C r.length
    if E.length ≠ L then none
    else
      match correctValues π (evaluator π S C L t) (derivative C L) E r with
      | none => none
      | some c => if isMember π c t then some c else none

/-! ## The commands -/

/-- `correct_block(b)` (45_reed_solomon.md R134). -/
def correctBlock (b : Nat) (s : State) : Flow :=
  let c := capOf s
  let t := blockCapacity c b
  let r := blkRow s b (blockTotal c b)
  let s := setSynFrom b 0 (syndromes s.params.raw r t) s
  if isMember s.params.raw r t then .goesOn (setBstat b bstatClean s)
  else
    match nearestMember s.params.raw r t with
    | some c => .goesOn (setBstat b (bstatFixed (dist r c)) (setBlkFrom b 0 c s))
    | none => raiseFailure .blockUncorrectable b (setBstat b bstatFailed s)

/-- The body of SYND (45_reed_solomon.md R129). -/
def syndBody (blk : Nat) (s : State) : Flow :=
  checkVersion s fun s =>
    checkBlock blk s fun s =>
      let s := setStage 5 s
      let c := capOf s
      let t := blockCapacity c blk
      let r := blkRow s blk (blockTotal c blk)
      let s := setSynFrom blk 0 (syndromes s.params.raw r t) s
      .goesOn (setBstat blk (if isMember s.params.raw r t then bstatClean else bstatDirty) s)

/-- `SYND blk` (45_reed_solomon.md R129). -/
def execSynd (blk : Nat) (s : State) : Host.Outcome State Fault Refusal := .next (syndBody blk s).state

/-- The body of RSCOR (45_reed_solomon.md R133). -/
def rscorBody (blk : Nat) (s : State) : Flow :=
  checkVersion s fun s => checkBlock blk s fun s => correctBlock blk (setStage 5 s)

/-- `RSCOR blk` (45_reed_solomon.md R133). -/
def execRscor (blk : Nat) (s : State) : Host.Outcome State Fault Refusal := .next (rscorBody blk s).state

/-- The blocks in the listed order, ended by the first uncorrectable one (45_reed_solomon.md R139). -/
def correctBlocks : List Nat → State → Flow
  | [], s => .goesOn s
  | b :: bs, s => (correctBlock b s).andThen (correctBlocks bs)

/-- The body of RSALL (45_reed_solomon.md R139). -/
def rsallBody (s : State) : Flow :=
  checkVersion s fun s => correctBlocks (List.range (blockCount (capOf s))) (setStage 5 s)

/-- `RSALL` (45_reed_solomon.md R139). -/
def execRsall (s : State) : Host.Outcome State Fault Refusal := .next (rsallBody s).state

end Sys2Proof.Machine
end

