-- ==== Sys2Proof/Machine/Sequencing.lean ====
section
/-!
DEFINITION. The sequencing commands NOP, RUN and SRST (46_sequencing.md R142 to R144).
-/

namespace Sys2Proof.Machine

/-- `NOP` (46_sequencing.md R142). -/
def execNop (s : State) : Host.Outcome State Fault Refusal := .next s

/-- The body of RUN: one version check in front, then the five bodies in the source's order, ended by the first
`raise` (46_sequencing.md R143). -/
def runBody (s : State) : Flow :=
  checkVersion s fun s =>
    ((((fmtdecBody s).andThen unmaskBody).andThen extractBody).andThen deintBody).andThen rsallBody

/-- `RUN` (46_sequencing.md R143). -/
def execRun (s : State) : Host.Outcome State Fault Refusal := .next (runBody s).state

/-- `SRST` (46_sequencing.md R144). -/
def execSrst (s : State) : Host.Outcome State Fault Refusal := .next (resetBlock s)

end Sys2Proof.Machine
end

