-- ==== Sys2Proof/Machine/Dispatch.lean ====
section
/-!
DEFINITION. One arm per command (46_sequencing.md R141, below the gate and the decode, which stand in
Machine/HostPort.lean).
-/

namespace Sys2Proof.Machine

def exec (i : Instr) (s : State) : Host.Outcome State Fault Refusal :=
  match i with
  | .nop => Sys2Proof.Machine.execNop s
  | .fmtdec => Sys2Proof.Machine.execFmtdec s
  | .unmask => Sys2Proof.Machine.execUnmask s
  | .extract => Sys2Proof.Machine.execExtract s
  | .deint => Sys2Proof.Machine.execDeint s
  | .synd blk => Sys2Proof.Machine.execSynd blk s
  | .rscor blk => Sys2Proof.Machine.execRscor blk s
  | .rsall => Sys2Proof.Machine.execRsall s
  | .run => Sys2Proof.Machine.execRun s
  | .srst => Sys2Proof.Machine.execSrst s

end Sys2Proof.Machine
end

