-- ==== Sys2Proof/Machine/HostPort.lean ====
section
/-!
DEFINITION. The host port: the views, the host read and the host write (10_state.md R15 to R29, R39; 20_memory.md R53 to
R62) and the dispatch of a command word (46_sequencing.md R141).
-/

namespace Sys2Proof.Machine

/-! ## Reads -/

/-- A view register: its value while the version is valid, else 0 (10_state.md R27). -/
def viewWord (s : State) (v : Nat) : Word := if validVersion s then BitVec.ofNat 32 v else 0

/-- The block and the byte that `OUT[k]` shows, for `k < NDATA`: the data codewords of all blocks, block 0 first
(10_state.md R39). -/
def outPlace (c : CapRecord) (k : Nat) : Nat × Nat :=
  if k < c.c1 * c.k1 then (k / c.k1, k % c.k1)
  else (c.c1 + (k - c.c1 * c.k1) / c.k2, (k - c.c1 * c.k1) % c.k2)

/-- `OUT[k]` (10_state.md R39). -/
def outByte (s : State) (k : Nat) : Byte :=
  if validVersion s ∧ k < totalData (capOf s) then
    blkByte s (outPlace (capOf s) k).1 (outPlace (capOf s) k).2
  else 0

/-- A register by its number (10_state.md R16 to R29). -/
def readReg (s : State) (n : Nat) : Word :=
  match n with
  | 0 => 0x51524431
  | 1 => 0
  | 2 => statusWord s
  | 3 => s.errInfo.setWidth 32
  | 4 => s.version.setWidth 32
  | 5 => s.level.setWidth 32
  | 6 => s.mask.setWidth 32
  | 7 => s.fmtRaw0.setWidth 32
  | 8 => s.fmtRaw1.setWidth 32
  | 9 => s.fmtWord.setWidth 32
  | 10 => viewWord s (moduleCount s)
  | 11 => viewWord s (totalCodewords (capOf s))
  | 12 => viewWord s (blockCount (capOf s))
  | 13 => viewWord s (totalData (capOf s))
  | 14 => s.cwCnt.setWidth 32
  | _ => 0

/-- A field of a `CAP` record by its number (20_memory.md R59). -/
def capField (c : CapRecord) (f : Nat) : Nat :=
  match f with
  | 0 => c.c1
  | 1 => c.n1
  | 2 => c.k1
  | 3 => c.c2
  | 4 => c.n2
  | 5 => c.k2
  | _ => 0

/-- The `CAP` space: `v = A[10:5]`, the level field `A[4:3]`, the field `A[2:0]` (20_memory.md R59). -/
def readCap (π : RawParams) (low : Nat) : Byte :=
  let v := low / 32
  if 1 ≤ v ∧ v ≤ 40 then
    BitVec.ofNat 8 (capField (capRecord π v (levelOf (BitVec.ofNat 2 (low / 8)))) (low % 8))
  else 0

/-- `MemRead` by the space `A[19:16]` and the element select `A[15:0]` (20_memory.md R53, R60); an address that names no
location reads 0 (R62). -/
def readElement (s : State) (space low : Nat) : Word :=
  match space with
  | 0x0 => readReg s low
  | 0x1 => (cellCode (gridCell s (low % 256) (low / 256))).setWidth 32
  | 0x2 => if low < 4096 then (readCw s low).setWidth 32 else 0
  | 0x3 => if low < 32768 then (readBlk s low).setWidth 32 else 0
  | 0x4 => if low < 4096 then (readSyn s low).setWidth 32 else 0
  | 0x5 => if low < 128 then (bstatOf s low).setWidth 32 else 0
  | 0x6 => if low < 4096 then (outByte s low).setWidth 32 else 0
  | 0x8 => if low < 256 then (gfexp s.params.raw low).setWidth 32 else 0
  | 0x9 => if low < 256 then BitVec.ofNat 32 (gflog s.params.raw (BitVec.ofNat 8 low)) else 0
  | 0xA => if low < 32 then (fmtEntry s.params.raw low).setWidth 32 else 0
  | 0xB => (readCap s.params.raw low).setWidth 32
  | _ => 0

/-- `A[19:16]` (20_memory.md R53). -/
def addrSpace (a : Addr) : Nat := a.toNat / 65536

/-- `A[15:0]` (20_memory.md R53). -/
def addrLow (a : Addr) : Nat := a.toNat % 65536

/-- The host read of an address (20_memory.md R60). -/
def hostRead (s : State) (a : Addr) : Word := readElement s (addrSpace a) (addrLow a)

/-! ## Commands -/

/-- `dispatch(w)`: the sticky gate, then the decode, then the command (46_sequencing.md R141; IllegalCommand,
60_exceptions.md R155). `exec` stands below the gate (DEDUCED, log 13). -/
def command (w : Word) (s : State) : Host.Outcome State Fault Refusal :=
  if s.err ≠ 0 ∧ w ≠ 0x0000000F then .next s
  else
    match decode w with
    | .ok i => exec i s
    | .error _ => .next (recordFailure .illegalCommand (w.extractLsb' 0 16).toNat s)

/-! ## Writes -/

/-- A write of a register other than `CMD`: the low bits of the read-write ones, nothing for the others
(20_memory.md R61; 10_state.md R22 to R25). -/
def writeReg (n : Nat) (v : Word) (s : State) : State :=
  match n with
  | 4 => { s with version := v.setWidth 6 }
  | 5 => { s with level := v.setWidth 2 }
  | 6 => { s with mask := v.setWidth 3 }
  | 7 => { s with fmtRaw0 := v.setWidth 15 }
  | 8 => { s with fmtRaw1 := v.setWidth 15 }
  | _ => s

/-- A write of an element outside `CMD` (20_memory.md R61, R62): `GRID`, `CW` and `BLK` store, every other place drops
the write. -/
def writeElement (space low : Nat) (v : Word) (s : State) : State :=
  match space with
  | 0x0 => writeReg low v s
  | 0x1 => setGridCell (low % 256) (low / 256) (cellOfCode (v.extractLsb' 0 2)) s
  | 0x2 => if low < 4096 then setCw low (v.setWidth 8) s else s
  | 0x3 => if low < 32768 then setBlkByte (low / 256) (low % 256) (v.setWidth 8) s else s
  | _ => s

/-- The host write of a word to an address; a write of `CMD`, register 1, executes the command
(20_memory.md R61, 10_state.md R18). -/
def hostWrite (a : Addr) (v : Word) (s : State) : Host.Outcome State Fault Refusal :=
  if a = 0x00001 then command v s else .next (writeElement (addrSpace a) (addrLow a) v s)

/-- One act of the host, with what the port answers (20_memory.md R60, R61; 70_reset_and_hazards.md R168; log 3). -/
def serve (e : HostEvent) (s : State) : Host.Outcome State Fault Refusal :=
  match e with
  | .read a => .next { s with reply := some (hostRead s a) }
  | .write a v => hostWrite a v { s with reply := none }
  | .reset => .next (resetBlock { s with reply := none })

/-- The host's next act is the write of `w` to `CMD` (log 3). -/
def queueCommand (w : Word) (s : State) : State :=
  { s with pending := .write 0x00001 w :: s.pending }

end Sys2Proof.Machine
end

