-- ==== Sys2Proof/Machine/Step.lean ====
section
/-!
DEFINITION. The step: the block serves the host's next act, each as one indivisible transition (00_scope.md R7,
20_memory.md R67). The block has no program counter and fetches nothing (10_state.md R31, 20_memory.md R69).
-/

namespace Sys2Proof.Machine

/-- One step: the oldest pending act of the host; with none pending the block waits (70_reset_and_hazards.md R168). Nothing
arrives inside a command (log 10), and nothing takes time (log 11). -/
def step (s : State) : Host.Outcome State Fault Refusal :=
  match s.pending with
  | [] => .next s
  | e :: rest => serve e { s with pending := rest }

/-- The state in which the host's next act is the write of the word to `CMD`: the place a command comes from
(10_state.md R18; log 3). -/
def State.withFetchWord (s : State) (nbits w : Nat) : State :=
  queueCommand (BitVec.ofNat 32 (w % 2 ^ nbits)) s

end Sys2Proof.Machine
end

