-- ==== Sys2Proof/Safety.lean ====
section
/-!
DEFINITION. What holds in every reachable state (10_state.md R44) and what counts as a good end of a command
(46_sequencing.md R148), in the terms the claims use.
-/

namespace Sys2Proof.Safety

open Sys2Proof.Machine

/-- The codes the block can record (60_exceptions.md R150, 10_state.md R44). -/
def legalErr (e : BitVec 4) : Bool :=
  e == 0 || e == 3 || e == 4 || e == 5 || e == 8 || e == 9

/-- A status byte of a block (10_state.md R37, R44): at most 16 changed bytes, none unless the block is `FIXED` (3), and
`FAIL` only on a `DIRTY` (2) block. -/
def legalBstat (v : Byte) : Bool :=
  decide ((bstatNERR v).toNat ≤ 16) && (decide (bstatNERR v = 0) || decide (bstatST v = 3)) &&
  (decide (bstatFAIL v = 0) || decide (bstatST v = 2))

/-- Every listed element lies in a memory of that size and holds a value below `bound`. -/
def inMemory (size bound : Nat) (m : Memory) : Prop :=
  ∀ e ∈ m, e.1 < size ∧ e.2.toNat < bound

/-- The invariant of reachable states: the clauses of 10_state.md R44 that say something of the stored state, and that
the four memories are in canonical form within their sizes (20_memory.md R55 to R58), cells holding legal codes. -/
def Inv (s : State) : Prop :=
  legalErr s.err = true ∧ s.stage.toNat ≤ 5 ∧ (∀ b < 128, legalBstat (bstatOf s b) = true) ∧
  Memory.wf s.grid ∧ inMemory 65536 3 s.grid ∧
  Memory.wf s.cw ∧ inMemory 4096 256 s.cw ∧
  Memory.wf s.blk ∧ inMemory 32768 256 s.blk ∧
  Memory.wf s.syn ∧ inMemory 4096 256 s.syn

/-- No failure is recorded (46_sequencing.md R148, 60_exceptions.md R167). -/
def noFailure (s : State) : Bool := s.err == 0

end Sys2Proof.Safety
end

