-- ==== Sys2Proof/Certificates/Slice0/Obligations.lean ====
section
/-!
DEFINITION. The statements for the provers. The terms they are written in come first (namespace Claims): each is a
sentence of the spec in plain arithmetic, apart from the model's own way of computing it. "Log n" is
notes/assumptions/n.md.
-/

namespace Sys2Proof.Claims

open Sys2Proof.Machine

/-! ## Terms -/

/-- The version is one a command accepts (00_scope.md R13). -/
def LegalVersion (s : State) : Prop := 1 ≤ s.version.toNat ∧ s.version.toNat ≤ 40

/-- A word of the three lists of 30_encoding.md R74. -/
def ListedIllegalWord (w : Word) : Prop :=
  (0x09 ≤ w.toNat % 256 ∧ w.toNat % 256 ≤ 0x0E) ∨ 0x10 ≤ w.toNat % 256 ∨ 65536 ≤ w.toNat ∨
  (w.toNat % 256 ∈ [0x00, 0x01, 0x02, 0x03, 0x04, 0x07, 0x08, 0x0F] ∧ w.toNat / 256 % 256 ≠ 0)

/-- An address that names no location, as a number (20_memory.md R62 with the bounds of R53, R54 and R59). -/
def NamesNoLocation (a : Nat) : Prop :=
  (0x00010 ≤ a ∧ a < 0x10000) ∨ (0x21000 ≤ a ∧ a < 0x30000) ∨ (0x38000 ≤ a ∧ a < 0x40000) ∨
  (0x41000 ≤ a ∧ a < 0x50000) ∨ (0x50080 ≤ a ∧ a < 0x60000) ∨ (0x61000 ≤ a ∧ a < 0x80000) ∨
  (0x80100 ≤ a ∧ a < 0x90000) ∨ (0x90100 ≤ a ∧ a < 0xA0000) ∨ (0xA0020 ≤ a ∧ a < 0xB0020) ∨
  (0xB0520 ≤ a ∧ a < 0xC0000) ∨ (0xB0000 ≤ a ∧ a < 0xC0000 ∧ 5 < a % 8) ∨ 0xC0000 ≤ a

/-- An address outside the places where a host write stores or executes something (20_memory.md R61). -/
def StoresNothing (a : Nat) : Prop :=
  (a < 0x10000 ∧ a ≠ 1 ∧ ¬(4 ≤ a ∧ a ≤ 8)) ∨ (0x21000 ≤ a ∧ a < 0x30000) ∨ 0x38000 ≤ a

/-- The host reads the element at a number (20_memory.md R60). -/
def readAt (s : State) (a : Nat) : Word := hostRead s (BitVec.ofNat 20 a)

/-- `S_i = SUM_v block[v] (*) apow(v * i)` (45_reed_solomon.md R128). -/
def powerSum (π : RawParams) (r : List Byte) (i : Nat) : Byte :=
  (List.range r.length).foldl (fun a v => gfAdd a (gfMul π (r.getD v 0) (apow π (v * i)))) 0

/-- The sequence is a member of `Code(n, t)`, `n` its length (45_reed_solomon.md R131). -/
def InCode (π : RawParams) (t : Nat) (c : List Byte) : Prop := ∀ i < 2 * t, powerSum π c i = 0

/-- The received word of a block under the current version and level (45_reed_solomon.md R127). -/
def received (s : State) (b : Nat) : List Byte :=
  (List.range (blockTotal (capOf s) b)).map fun j => blkByte s b j

/-- The capacity of a block under the current version and level (45_reed_solomon.md R127). -/
def capacityOf (s : State) (b : Nat) : Nat := blockCapacity (capOf s) b

/-- `c` is a sequence that block `b` may be corrected to: a member of its code within its capacity
(45_reed_solomon.md R134). -/
def WithinReach (s : State) (b : Nat) (c : List Byte) : Prop :=
  c.length = blockTotal (capOf s) b ∧ InCode s.params.raw (capacityOf s b) c ∧
  dist (received s b) c ≤ capacityOf s b

/-- Entry `k` of the format table is less than four bits from the raw word (41_format_decode.md R98). -/
def Near (π : RawParams) (raw : BitVec 15) (k : Nat) : Prop := popcount (raw ^^^ π.fmttab.getD k 0) < 4

/-- Entry `k` is the first that is near the raw word (41_format_decode.md R98). -/
def FirstNear (π : RawParams) (raw : BitVec 15) (k : Nat) : Prop :=
  k < 32 ∧ Near π raw k ∧ ∀ j < k, ¬Near π raw j

/-- The decoded format word of entry `k` (41_format_decode.md R99). -/
def formatWord (π : RawParams) (k : Nat) : BitVec 15 := π.fmttab.getD k 0 ^^^ 0x5412

/-- The eight mask formulas (42_mask.md R106). -/
def maskRule (p x y : Nat) : Bool :=
  match p with
  | 0 => decide ((x + y) % 2 = 0)
  | 1 => decide (y % 2 = 0)
  | 2 => decide (x % 3 = 0)
  | 3 => decide ((x + y) % 3 = 0)
  | 4 => decide ((y / 2 + x / 3) % 2 = 0)
  | 5 => decide ((x * y) % 2 + (x * y) % 3 = 0)
  | 6 => decide (((x * y) % 2 + (x * y) % 3) % 2 = 0)
  | 7 => decide (((x * y) % 3 + (x + y) % 2) % 2 = 0)
  | _ => false

/-- `D`, the number of data cells of the `n` by `n` grid outside column 6 (43_extract.md R114). -/
def dataCells (s : State) (n : Nat) : Nat :=
  ((List.range n).map fun y =>
    ((List.range n).filter fun x => decide (x ≠ 6) && decide (gridCell s x y ≠ .function)).length).sum

/-- The right column of the pair that the walk sweeps as its `k`-th, counted from 0 (43_extract.md R113). -/
def pairColumn (n k : Nat) : Nat := if 8 ≤ n - 1 - 2 * k then n - 1 - 2 * k else n - 2 - 2 * k

/-- The data bits in the order of the walk, dark as true, each flipped where pattern `flips` says so
(43_extract.md R112, R113). -/
def dataBits (s : State) (n : Nat) (flips : Nat → Nat → Bool) : List Bool :=
  (zigzag n).filterMap fun xy =>
    match gridCell s xy.1 xy.2 with
    | .function => none
    | .dataDark => some (!flips xy.1 xy.2)
    | .dataLight => some (flips xy.1 xy.2)

/-- Codeword `p` of a bit stream, its first bit the most significant (30_encoding.md R82). -/
def codewordOf (bits : List Bool) (p : Nat) : Byte :=
  (List.range 8).foldl (fun a i => (a <<< 1) ||| (if bits.getD (8 * p + i) false then 1#8 else 0#8)) 0

/-- The places of the blocks in round-robin order: byte `j` of every block that has one, in block order, for `j` from 0
up (44_deinterleave.md R120, R121, R122). -/
def dealOrder (c : CapRecord) : List (Nat × Nat) :=
  (List.range 256).flatMap fun j =>
    ((List.range (blockCount c)).filter fun b => decide (j < blockTotal c b)).map fun b => (b, j)

/-- The block that DEINT deals from a bit stream (44_deinterleave.md R121). -/
def dealt (c : CapRecord) (bits : List Bool) (b : Nat) : List Byte :=
  (List.range (blockTotal c b)).map fun j => codewordOf bits ((dealOrder c).idxOf (b, j))

/-- FMTDEC takes entry `k` from the raw word that `copy` names: the primary (0), or the secondary (1) when no entry is
near the primary (41_format_decode.md R98). -/
def FormatFrom (s : State) (copy : BitVec 1) (k : Nat) : Prop :=
  (copy = 0 ∧ FirstNear s.params.raw s.fmtRaw0 k) ∨
  (copy = 1 ∧ (∀ j < 32, ¬Near s.params.raw s.fmtRaw0 j) ∧ FirstNear s.params.raw s.fmtRaw1 k)

/-- `t` is what a successful RUN leaves of `s` (46_sequencing.md R143): `w` the format word from the copy, `c` the capacity
record, `bits` the unmasked data bits, `members b` what block `b` is corrected to; and nothing else changed. -/
def Decoded (s t : State) (copy : BitVec 1) (w : BitVec 15) (c : CapRecord) (bits : List Bool)
    (members : Nat → List Byte) : Prop :=
  t = { s with stage := 5, fmtWord := w, level := w.extractLsb' 13 2, mask := w.extractLsb' 10 3
               fmtValid := 1, fmtCopy := copy, cwCnt := BitVec.ofNat 13 (totalCodewords c)
               grid := t.grid, cw := t.cw, blk := t.blk, syn := t.syn, bstat := t.bstat } ∧
  (∀ x y, x < 256 → y < 256 →
    gridCell t x y =
      if x < 17 + 4 * s.version.toNat ∧ y < 17 + 4 * s.version.toNat ∧
          gridCell s x y ≠ .function ∧ maskRule (w.extractLsb' 10 3).toNat x y = true
      then (if gridCell s x y = .dataLight then .dataDark else .dataLight)
      else gridCell s x y) ∧
  (∀ a, 17 + 4 * s.version.toNat ≤ a % 256 ∨ 17 + 4 * s.version.toNat ≤ a / 256 →
    readGrid t a = readGrid s a) ∧
  (∀ p, readCw t p = if p < totalCodewords c then codewordOf bits p else readCw s p) ∧
  (∀ b < blockCount c, ∀ j < 256,
    blkByte t b j = if j < blockTotal c b then (members b).getD j 0 else blkByte s b j) ∧
  (∀ a, 256 * blockCount c ≤ a → readBlk t a = readBlk s a) ∧
  (∀ b < blockCount c, ∀ i < 32,
    synByte t b i =
      if i < 2 * blockCapacity c b then powerSum s.params.raw (dealt c bits b) i else synByte s b i) ∧
  (∀ a, 32 * blockCount c ≤ a → readSyn t a = readSyn s a) ∧
  ∀ b, bstatOf t b =
    if b < blockCount c then
      (if dealt c bits b = members b then 0x01 else BitVec.ofNat 8 (3 + 8 * dist (dealt c bits b) (members b)))
    else 0

/-- A host that issues commands one after the other and stops at the first failure (46_sequencing.md R143). -/
def issueAll : List Instr → State → Host.Outcome State Fault Refusal
  | [], s => .next s
  | i :: rest, s =>
    match exec i s with
    | .next t => if t.err = 0 then issueAll rest t else .next t
    | .fault f => .fault f
    | .refused r => .refused r

end Sys2Proof.Claims

open Sys2Proof Sys2Proof.Machine Sys2Proof.Claims Sys2Proof.Safety

/-! ## Encoding -/

/-- Decoding the word of a well-formed command gives the command back (30_encoding.md R71 to R73). -/
def Obligations.DecodeOfEncodeIsTheCommand : Prop :=
  ∀ i : Instr, i.wf = true → decode (encode i) = .ok i

/-- A word that decodes is the one word of its command (30_encoding.md R73: the rows are disjoint and fix every bit but
the operand's). -/
def Obligations.EveryLegalWordIsAnEncoding : Prop :=
  ∀ (w : Word) (i : Instr), decode w = .ok i → i.wf = true ∧ encode i = w

/-- The words that no row of the opcode map matches are those of the three lists (30_encoding.md R74). -/
def Obligations.IllegalWordsAreTheListedOnes : Prop :=
  ∀ w : Word, (∃ e, decode w = .error e) ↔ ListedIllegalWord w

/-- A word of each row of the opcode map decodes to its command (30_encoding.md R73). -/
def Obligations.WordsOfTheOpcodeMapDecode : Prop :=
  decode 0x00000000 = .ok .nop ∧ decode 0x00000001 = .ok .fmtdec ∧ decode 0x00000002 = .ok .unmask ∧
  decode 0x00000003 = .ok .extract ∧ decode 0x00000004 = .ok .deint ∧ decode 0x0000FF05 = .ok (.synd 255) ∧
  decode 0x00005106 = .ok (.rscor 81) ∧ decode 0x00000007 = .ok .rsall ∧ decode 0x00000008 = .ok .run ∧
  decode 0x0000000F = .ok .srst

/-! ## Reset, dispatch and failures -/

/-- What the host reads after reset: the registers, the rest of `REG`, every `BSTAT` and every `OUT` (10_state.md R42).
That the parameters are the defaults there is the model's choice (log 4): the spec makes them arguments of the model and
gives the defaults (00_scope.md R6). -/
def Obligations.ResetReadsAsTheResetTable : Prop :=
  ((List.range 16).map fun n => readAt State.reset n) =
    [0x51524431, 0, 0, 0, 0, 0, 0, 0, 0, 0, 0, 0, 0, 0, 0, 0] ∧
  (∀ n, 16 ≤ n → n < 0x10000 → readAt State.reset n = 0) ∧
  (∀ b < 128, readAt State.reset (0x50000 + b) = 0) ∧
  (∀ k < 4096, readAt State.reset (0x60000 + k) = 0) ∧
  State.reset.params = defaultParams

/-- SRST puts every register and every `BSTAT` back to its reset value and leaves the memories unspecified, whatever the
state: they list nothing, under some new seed (46_sequencing.md R144; log 1, 2). -/
def Obligations.SrstLeavesTheResetState : Prop :=
  ∀ s : State, ∃ t, exec .srst s = .next t ∧
    t = { State.reset with params := s.params, seed := t.seed, pending := s.pending, reply := s.reply }

/-- The reset from outside leaves the same state (70_reset_and_hazards.md R168, R169; as an act of the host, log 3). -/
def Obligations.ResetFromOutsideLeavesTheResetState : Prop :=
  ∀ (s : State) (rest : List HostEvent), s.pending = .reset :: rest →
    ∃ t, step s = .next t ∧
      t = { State.reset with params := s.params, seed := t.seed, pending := rest, reply := none }

/-- NOP, the word 0, reads nothing and writes nothing; written to `CMD` it has no effect whether or not a failure is
recorded (46_sequencing.md R142). -/
def Obligations.NopChangesNothing : Prop :=
  decode 0x00000000 = .ok .nop ∧ (∀ s : State, exec .nop s = .next s) ∧
  ∀ (s : State) (rest : List HostEvent), s.pending = .write 0x00001 0x00000000 :: rest →
    step s = .next { s with pending := rest, reply := none }

/-- A step in which the host writes the word of a command to `CMD` runs that command: while no failure is recorded, or
when the word is SRST's (46_sequencing.md R141). The host's act is used up and its port answers nothing (log 3). -/
def Obligations.StepRunsTheDecodedCommand : Prop :=
  (∀ (s : State) (w : Word) (rest : List HostEvent) (i : Instr),
    s.pending = .write 0x00001 w :: rest → decode w = .ok i → (s.err = 0 ∨ w = 0x0000000F) →
    step s = exec i { s with pending := rest, reply := none }) ∧
  ∀ (s : State) (i : Instr), i.wf = true → s.err = 0 →
    step (s.withFetchWord 32 (encode i).toNat) = exec i { s with reply := none }

/-- The sticky gate: while a failure is recorded every word but SRST's is dropped, illegal words too
(46_sequencing.md R141). -/
def Obligations.FailureGateDropsEveryOtherCommand : Prop :=
  ∀ (s : State) (w : Word) (rest : List HostEvent),
    s.pending = .write 0x00001 w :: rest → s.err ≠ 0 → w ≠ 0x0000000F →
    step s = .next { s with pending := rest, reply := none }

/-- An illegal word records IllegalCommand with the low half of the word and changes nothing else
(60_exceptions.md R155, 30_encoding.md R74). -/
def Obligations.IllegalWordRecordsIllegalCommand : Prop :=
  ∀ (s : State) (w : Word) (rest : List HostEvent),
    s.pending = .write 0x00001 w :: rest → s.err = 0 → ListedIllegalWord w →
    step s = .next { s with pending := rest, reply := none, err := 8, errInfo := w.extractLsb' 0 16 }

/-- With no act of the host pending the block does nothing on its own (70_reset_and_hazards.md R168; log 3). -/
def Obligations.BlockWaitsForTheHost : Prop := ∀ s : State, s.pending = [] → step s = .next s

/-- No step stops: every act of the host has an outcome in the state (70_reset_and_hazards.md R178). -/
def Obligations.EveryStepAnswersANextState : Prop := ∀ s : State, ∃ t, step s = .next t

/-- A command that uses the version refuses an illegal one with BadParameter(1), with no other effect
(60_exceptions.md R156, cause 1). -/
def Obligations.IllegalVersionIsABadParameter : Prop :=
  ∀ (s : State) (i : Instr), ¬LegalVersion s →
    (i = .unmask ∨ i = .extract ∨ i = .deint ∨ (∃ b, i = .synd b) ∨ (∃ b, i = .rscor b) ∨ i = .rsall ∨ i = .run) →
    exec i s = .next { s with err := 9, errInfo := 1 }

/-- SYND and RSCOR refuse a block that the record does not have with BadParameter(2), after the version, with no other
effect (60_exceptions.md R156, cause 2). -/
def Obligations.MissingBlockIsABadParameter : Prop :=
  ∀ (s : State) (b : Nat), LegalVersion s → blockCount (capOf s) ≤ b →
    exec (.synd b) s = .next { s with err := 9, errInfo := 2 } ∧
    exec (.rscor b) s = .next { s with err := 9, errInfo := 2 }

/-- A recorded failure stays as it is until the host writes SRST or delivers a reset (60_exceptions.md R160, R162). -/
def Obligations.FailureStaysUntilSrstOrReset : Prop :=
  ∀ s t : State, s.err ≠ 0 → step s = .next t →
    (∀ rest, s.pending ≠ .reset :: rest) → (∀ rest, s.pending ≠ .write 0x00001 0x0000000F :: rest) →
    t.err = s.err ∧ t.errInfo = s.errInfo

/-! ## The host port -/

/-- A host read is answered with the element and changes nothing else (log 3); and which element that is, in every state:
the constant and the empty registers, the stored registers, and the elements of the memories and of the block status
(20_memory.md R55 to R60; 10_state.md R15 to R18, R21 to R26, R28, R29). -/
def Obligations.HostReadChangesNothing : Prop :=
  (∀ (s : State) (a : Addr) (rest : List HostEvent), s.pending = .read a :: rest →
    step s = .next { s with pending := rest, reply := some (readAt s a.toNat) }) ∧
  ∀ s : State,
    readAt s 0 = 0x51524431 ∧ readAt s 1 = 0 ∧ readAt s 15 = 0 ∧
    readAt s 3 = s.errInfo.setWidth 32 ∧ readAt s 4 = s.version.setWidth 32 ∧ readAt s 5 = s.level.setWidth 32 ∧
    readAt s 6 = s.mask.setWidth 32 ∧ readAt s 7 = s.fmtRaw0.setWidth 32 ∧ readAt s 8 = s.fmtRaw1.setWidth 32 ∧
    readAt s 9 = s.fmtWord.setWidth 32 ∧ readAt s 14 = s.cwCnt.setWidth 32 ∧
    (∀ x y, x < 256 → y < 256 →
      readAt s (0x10000 + 256 * y + x) =
        match gridCell s x y with
        | .dataLight => 0
        | .dataDark => 1
        | .function => 2) ∧
    (∀ p < 4096, readAt s (0x20000 + p) = (readCw s p).setWidth 32) ∧
    (∀ b < 128, ∀ j < 256, readAt s (0x30000 + 256 * b + j) = (blkByte s b j).setWidth 32) ∧
    (∀ b < 128, ∀ i < 32, readAt s (0x40000 + 32 * b + i) = (synByte s b i).setWidth 32) ∧
    ∀ b < 128, readAt s (0x50000 + b) = (bstatOf s b).setWidth 32

/-- The fields of `STATUS` stand at their places and its reserved bits read 0 (10_state.md R19). -/
def Obligations.StatusFieldsStandAtTheirPlaces : Prop :=
  ∀ s : State, (readAt s 2).extractLsb' 0 4 = s.err ∧ (readAt s 2).extractLsb' 4 3 = s.stage ∧
    (readAt s 2).extractLsb' 7 1 = 0 ∧ (readAt s 2).extractLsb' 8 1 = s.fmtValid ∧
    (readAt s 2).extractLsb' 9 1 = s.fmtCopy ∧ (readAt s 2).extractLsb' 10 22 = 0

/-- The four view registers (10_state.md R27, with the quantities of 00_scope.md R13). -/
def Obligations.ViewRegistersFollowTheVersion : Prop :=
  ∀ s : State,
    (LegalVersion s →
      readAt s 10 = BitVec.ofNat 32 (17 + 4 * s.version.toNat) ∧
      readAt s 11 = BitVec.ofNat 32 ((capOf s).c1 * (capOf s).n1 + (capOf s).c2 * (capOf s).n2) ∧
      readAt s 12 = BitVec.ofNat 32 ((capOf s).c1 + (capOf s).c2) ∧
      readAt s 13 = BitVec.ofNat 32 ((capOf s).c1 * (capOf s).k1 + (capOf s).c2 * (capOf s).k2)) ∧
    (¬LegalVersion s → readAt s 10 = 0 ∧ readAt s 11 = 0 ∧ readAt s 12 = 0 ∧ readAt s 13 = 0)

/-- `OUT` shows the data codewords of all blocks, block 0 first, and 0 from `NDATA` on or under an illegal version
(10_state.md R39). -/
def Obligations.OutShowsTheDataCodewordsInBlockOrder : Prop :=
  ∀ s : State,
    (LegalVersion s →
      (∀ b j, b < blockCount (capOf s) → j < blockData (capOf s) b →
        readAt s (0x60000 + ((List.range b).map fun b' => blockData (capOf s) b').sum + j) =
          (blkByte s b j).setWidth 32) ∧
      ∀ k < 4096, totalData (capOf s) ≤ k → readAt s (0x60000 + k) = 0) ∧
    (¬LegalVersion s → ∀ k < 4096, readAt s (0x60000 + k) = 0)

/-- A host write of a parameter register stores the low bits, which read back, and nothing else changes
(20_memory.md R61; 10_state.md R22 to R25). -/
def Obligations.ParameterRegistersStoreTheirLowBits : Prop :=
  ∀ (s : State) (v : Word) (rest : List HostEvent),
    (s.pending = .write 0x00004 v :: rest → ∃ t, step s = .next t ∧
      t = { s with pending := rest, reply := none, version := v.extractLsb' 0 6 } ∧
      readAt t 4 = BitVec.ofNat 32 (v.toNat % 64)) ∧
    (s.pending = .write 0x00005 v :: rest → ∃ t, step s = .next t ∧
      t = { s with pending := rest, reply := none, level := v.extractLsb' 0 2 } ∧
      readAt t 5 = BitVec.ofNat 32 (v.toNat % 4)) ∧
    (s.pending = .write 0x00006 v :: rest → ∃ t, step s = .next t ∧
      t = { s with pending := rest, reply := none, mask := v.extractLsb' 0 3 } ∧
      readAt t 6 = BitVec.ofNat 32 (v.toNat % 8)) ∧
    (s.pending = .write 0x00007 v :: rest → ∃ t, step s = .next t ∧
      t = { s with pending := rest, reply := none, fmtRaw0 := v.extractLsb' 0 15 } ∧
      readAt t 7 = BitVec.ofNat 32 (v.toNat % 32768)) ∧
    (s.pending = .write 0x00008 v :: rest → ∃ t, step s = .next t ∧
      t = { s with pending := rest, reply := none, fmtRaw1 := v.extractLsb' 0 15 } ∧
      readAt t 8 = BitVec.ofNat 32 (v.toNat % 32768))

/-- A host write of a `GRID` cell stores the two low bits, 3 as `function`, in the cell that the commands know by that
column and row; its address reads so, every other cell and its address are as before, and nothing else changes
(20_memory.md R55, R61; 30_encoding.md R80). -/
def Obligations.GridWriteStoresOneCell : Prop :=
  ∀ (s : State) (x y : Nat) (v : Word) (rest : List HostEvent), x < 256 → y < 256 →
    s.pending = .write (BitVec.ofNat 20 (0x10000 + 256 * y + x)) v :: rest →
    ∃ t, step s = .next t ∧ t = { s with pending := rest, reply := none, grid := t.grid } ∧
      ∀ x' y', x' < 256 → y' < 256 →
        gridCell t x' y' =
          (if x' = x ∧ y' = y then
            (if v.toNat % 4 = 0 then .dataLight else if v.toNat % 4 = 1 then .dataDark else .function)
          else gridCell s x' y') ∧
        readAt t (0x10000 + 256 * y' + x') =
          if x' = x ∧ y' = y then BitVec.ofNat 32 (min (v.toNat % 4) 2)
          else readAt s (0x10000 + 256 * y' + x')

/-- A host write of a `CW` byte or of a `BLK` byte stores the low byte in the byte that the commands know by that index;
its address reads so, every other byte of the memory and its address are as before, and nothing else changes
(20_memory.md R56, R57, R61). -/
def Obligations.ByteWriteStoresOneByte : Prop :=
  ∀ (s : State) (v : Word) (rest : List HostEvent),
    (∀ p < 4096, s.pending = .write (BitVec.ofNat 20 (0x20000 + p)) v :: rest →
      ∃ t, step s = .next t ∧ t = { s with pending := rest, reply := none, cw := t.cw } ∧
        (∀ p', readCw t p' = if p' = p then BitVec.ofNat 8 v.toNat else readCw s p') ∧
        ∀ p' < 4096,
          readAt t (0x20000 + p') =
            if p' = p then BitVec.ofNat 32 (v.toNat % 256) else readAt s (0x20000 + p')) ∧
    ∀ b < 128, ∀ j < 256, s.pending = .write (BitVec.ofNat 20 (0x30000 + 256 * b + j)) v :: rest →
      ∃ t, step s = .next t ∧ t = { s with pending := rest, reply := none, blk := t.blk } ∧
        (∀ b' j', j' < 256 →
          blkByte t b' j' = if b' = b ∧ j' = j then BitVec.ofNat 8 v.toNat else blkByte s b' j') ∧
        ∀ b' < 128, ∀ j' < 256,
          readAt t (0x30000 + 256 * b' + j') =
            if b' = b ∧ j' = j then BitVec.ofNat 32 (v.toNat % 256) else readAt s (0x30000 + 256 * b' + j')

/-- Every other host write is dropped silently (20_memory.md R61). -/
def Obligations.OtherHostWritesAreDropped : Prop :=
  ∀ (s : State) (a : Addr) (v : Word) (rest : List HostEvent),
    s.pending = .write a v :: rest → StoresNothing a.toNat →
    step s = .next { s with pending := rest, reply := none }

/-- An address that names no location reads 0, and a write to it does nothing and is no failure
(20_memory.md R62). -/
def Obligations.UnnamedAddressesReadZeroAndDropWrites : Prop :=
  ∀ (s : State) (a : Addr), NamesNoLocation a.toNat →
    hostRead s a = 0 ∧
    ∀ (v : Word) (rest : List HostEvent), s.pending = .write a v :: rest →
      step s = .next { s with pending := rest, reply := none }

/-- The host reads of the field tables are powers of `ALPHA` and their exponents, exponent 0 at index 255
(15_rom_tables.md R45, R46). -/
def Obligations.FieldTablesReadAsPowersAndExponents : Prop :=
  ∀ s : State, readAt s 0x80000 = 0 ∧ readAt s 0x90000 = 0 ∧
    (∀ e, 1 ≤ e → e ≤ 255 → readAt s (0x80000 + e) = (apow s.params.raw e).setWidth 32) ∧
    ∀ a, 1 ≤ a → a ≤ 255 → ∃ e, 1 ≤ e ∧ e ≤ 255 ∧ apow s.params.raw e = BitVec.ofNat 8 a ∧
      readAt s (0x90000 + a) = BitVec.ofNat 32 e

/-- The host reads of `FMTTAB` and `CAP` are the parameters' entries and fields (20_memory.md R59). -/
def Obligations.ParameterTablesReadAsTheirEntries : Prop :=
  ∀ s : State,
    (∀ k < 32, readAt s (0xA0000 + k) = (s.params.raw.fmttab.getD k 0).setWidth 32) ∧
    ∀ v lf, 1 ≤ v → v ≤ 40 → lf < 4 →
      ((List.range 6).map fun f => readAt s (0xB0000 + 32 * v + 8 * lf + f)) =
        (let c := capRecord s.params.raw v (levelOf (BitVec.ofNat 2 lf))
         [c.c1, c.n1, c.k1, c.c2, c.n2, c.k2].map (BitVec.ofNat 32))

/-! ## The field -/

/-- The laws of the field multiplication, for every block's parameters (40_field_and_bit_primitives.md R86). -/
def Obligations.FieldMultiplicationLaws : Prop :=
  ∀ (p : Params) (a b c : Byte),
    gfMul p.raw a b = gfMul p.raw b a ∧
    gfMul p.raw (gfMul p.raw a b) c = gfMul p.raw a (gfMul p.raw b c) ∧
    gfMul p.raw a (gfAdd b c) = gfAdd (gfMul p.raw a b) (gfMul p.raw a c) ∧
    gfMul p.raw 1 a = a ∧ (gfMul p.raw a b = 0 ↔ a = 0 ∨ b = 0)

/-- The powers of `ALPHA`: their recursion, that none is 0, and that they come round after 255
(40_field_and_bit_primitives.md R87). -/
def Obligations.PowersComeRoundAfter255 : Prop :=
  ∀ (p : Params) (e : Nat),
    apow p.raw 0 = 1 ∧ apow p.raw (e + 1) = gfMul p.raw (apow p.raw e) p.raw.alpha ∧
    apow p.raw e ≠ 0 ∧ apow p.raw e = apow p.raw (e % 255) ∧ apow p.raw 255 = 1

/-- The inverse is the one byte whose product with a non-zero byte is 1 (40_field_and_bit_primitives.md R88). -/
def Obligations.InverseIsTheOneByteWithProductOne : Prop :=
  ∀ (p : Params), (∀ a b : Byte, a ≠ 0 → (gfMul p.raw a b = 1 ↔ b = gfInv p.raw a)) ∧
    ∀ e, gfInv p.raw (apow p.raw e) = apow p.raw (255 - e % 255)

/-- Multiplication by table look-up is the multiplication (40_field_and_bit_primitives.md R89). -/
def Obligations.TableLookUpMultiplies : Prop :=
  ∀ (p : Params) (a b : Byte),
    (a = 0 ∨ b = 0 → gfMul p.raw a b = 0) ∧
    (a ≠ 0 → b ≠ 0 →
      gfMul p.raw a b = gfexp p.raw ((gflog p.raw a + gflog p.raw b - 1) % 255 + 1))

/-- The syndrome the commands compute, the value of the polynomial of the bytes at `apow(i)`, is the power sum of the
spec; the one of index 0 is the sum of the bytes (45_reed_solomon.md R128; computed by Horner's rule, log 7). -/
def Obligations.SyndromeIsThePowerSum : Prop :=
  ∀ (p : Params) (r : List Byte),
    (∀ i, syndrome p.raw r i = powerSum p.raw r i) ∧ powerSum p.raw r 0 = r.foldl gfAdd 0

/-- Two different members of a code differ in at least `2t + 1` bytes, so that at most one lies within `t` bytes of any
sequence (45_reed_solomon.md R132). -/
def Obligations.CodeMembersLieFarApart : Prop :=
  ∀ (p : Params) (t : Nat) (c d : List Byte), c.length = d.length → c.length ≤ 255 →
    InCode p.raw t c → InCode p.raw t d →
    (c ≠ d → 2 * t + 1 ≤ dist c d) ∧
    ∀ r : List Byte, r.length = c.length → dist r c ≤ t → dist r d ≤ t → c = d

/-! ## FMTDEC -/

/-- The default format table: two entries differ in at least seven bits and some two in exactly seven, so at most one
entry is within three bits of a word, and a word within three bits of an entry decodes to it; the index stands in the
upper five bits of the decoded word; the zero word is at least five bits from every entry (15_rom_tables.md R48). -/
def Obligations.DefaultFormatEntriesLieFarApart : Prop :=
  (∀ j < 32, ∀ k < 32, j ≠ k → 7 ≤ popcount (defaultFmttab.getD j 0 ^^^ defaultFmttab.getD k 0)) ∧
  (∃ j < 32, ∃ k < 32, popcount (defaultFmttab.getD j 0 ^^^ defaultFmttab.getD k 0) = 7) ∧
  (∀ (raw : BitVec 15), ∀ j < 32, ∀ k < 32,
    Near defaultRawParams raw j → Near defaultRawParams raw k → j = k) ∧
  (∀ (raw : BitVec 15), ∀ k < 32, Near defaultRawParams raw k → fmtMatch defaultRawParams raw = some k) ∧
  (∀ k < 32, (formatWord defaultRawParams k).extractLsb' 10 5 = BitVec.ofNat 5 k) ∧
  ∀ k < 32, 5 ≤ popcount (0 ^^^ defaultFmttab.getD k 0)

/-- FMTDEC accepts the first near entry of the primary word, else of the secondary, else records FormatUndecodable; what
it writes and nothing else; under the default table the level field and the mask id are the index of the entry
(41_format_decode.md R98, R99, R100). -/
def Obligations.FmtdecTakesTheFirstNearEntry : Prop :=
  decode 0x00000001 = .ok .fmtdec ∧
  (∀ k < 32, (formatWord defaultRawParams k).extractLsb' 13 2 = BitVec.ofNat 2 (k / 8) ∧
    (formatWord defaultRawParams k).extractLsb' 10 3 = BitVec.ofNat 3 (k % 8)) ∧
  ∀ s : State,
    (∀ k, FirstNear s.params.raw s.fmtRaw0 k →
      exec .fmtdec s = .next
        { s with stage := 1, fmtWord := formatWord s.params.raw k
                 level := (formatWord s.params.raw k).extractLsb' 13 2
                 mask := (formatWord s.params.raw k).extractLsb' 10 3, fmtValid := 1, fmtCopy := 0 }) ∧
    ((∀ j < 32, ¬Near s.params.raw s.fmtRaw0 j) →
      ∀ k, FirstNear s.params.raw s.fmtRaw1 k →
      exec .fmtdec s = .next
        { s with stage := 1, fmtWord := formatWord s.params.raw k
                 level := (formatWord s.params.raw k).extractLsb' 13 2
                 mask := (formatWord s.params.raw k).extractLsb' 10 3, fmtValid := 1, fmtCopy := 1 }) ∧
    ((∀ j < 32, ¬Near s.params.raw s.fmtRaw0 j) → (∀ j < 32, ¬Near s.params.raw s.fmtRaw1 j) →
      exec .fmtdec s = .next { s with stage := 1, err := 3, errInfo := 0 })

/-- Under the default table a primary word with up to three flipped bits decodes to its entry, whose index is the level
field and the mask id (41_format_decode.md R99, R102; 15_rom_tables.md R48). -/
def Obligations.FmtdecRestoresUpToThreeFlippedBits : Prop :=
  ∀ (s : State) (k : Nat), s.params.raw.fmttab = defaultFmttab → k < 32 →
    popcount (s.fmtRaw0 ^^^ defaultFmttab.getD k 0) ≤ 3 →
    exec .fmtdec s = .next
      { s with stage := 1, fmtWord := defaultFmttab.getD k 0 ^^^ 0x5412
               level := BitVec.ofNat 2 (k / 8), mask := BitVec.ofNat 3 (k % 8), fmtValid := 1, fmtCopy := 0 }

/-! ## UNMASK -/

/-- UNMASK flips the data cells of the `N` by `N` grid where the formula of `MASK` is true, and changes nothing else but
`STAGE`; an illegal version is a BadParameter(1) and no more (42_mask.md R105, R106). -/
def Obligations.UnmaskFlipsTheMaskedDataCells : Prop :=
  decode 0x00000002 = .ok .unmask ∧
  ∀ s : State,
    (¬LegalVersion s → exec .unmask s = .next { s with err := 9, errInfo := 1 }) ∧
    (LegalVersion s → ∃ t, exec .unmask s = .next t ∧ t = { s with stage := 2, grid := t.grid } ∧
      (∀ x y, x < 256 → y < 256 →
        gridCell t x y =
          if x < 17 + 4 * s.version.toNat ∧ y < 17 + 4 * s.version.toNat ∧
              gridCell s x y ≠ .function ∧ maskRule s.mask.toNat x y = true
          then (if gridCell s x y = .dataLight then .dataDark else .dataLight)
          else gridCell s x y) ∧
      ∀ a, 17 + 4 * s.version.toNat ≤ a % 256 ∨ 17 + 4 * s.version.toNat ≤ a / 256 →
        readGrid t a = readGrid s a)

/-- Two UNMASK commands in a row restore the grid (42_mask.md R107). -/
def Obligations.UnmaskTwiceRestoresTheGrid : Prop :=
  ∀ s : State, LegalVersion s → ∃ t u, exec .unmask s = .next t ∧ exec .unmask t = .next u ∧
    ∀ x y, x < 256 → y < 256 → gridCell u x y = gridCell s x y

/-! ## EXTRACT -/

/-- The order of the walk: pairs from the right, column 6 in none, the first swept upward and then in turn, the right
column first in each row (43_extract.md R112, R113). -/
def Obligations.WalkGoesZigzagFromTheBottomRight : Prop :=
  ∀ v, 1 ≤ v → v ≤ 40 →
    (zigzag (17 + 4 * v)).length = (17 + 4 * v) * (16 + 4 * v) ∧
    ∀ k i d, k < 8 + 2 * v → i < 17 + 4 * v → d < 2 →
      (zigzag (17 + 4 * v))[2 * (17 + 4 * v) * k + 2 * i + d]? =
        some (pairColumn (17 + 4 * v) k - d, if k % 2 = 0 then 16 + 4 * v - i else i)

/-- The walk looks at every cell of the grid outside column 6 exactly once, at every size
(43_extract.md R118). -/
def Obligations.WalkVisitsEachCellOutsideColumnSixOnce : Prop :=
  ∀ v, 1 ≤ v → v ≤ 40 →
    (zigzag (17 + 4 * v)).Nodup ∧
    ∀ x y, (x, y) ∈ zigzag (17 + 4 * v) ↔ x < 17 + 4 * v ∧ y < 17 + 4 * v ∧ x ≠ 6

/-- EXTRACT succeeds when the data cells give `T` codewords and fewer than eight bits more: `CW[0 .. T-1]` hold the bits
of the walk, first bit most significant, and nothing else changes but `CWCNT` and `STAGE`
(43_extract.md R112, R114, R115; 30_encoding.md R82). -/
def Obligations.ExtractPacksTheWalkIntoCodewords : Prop :=
  ∀ s : State, LegalVersion s →
    8 * totalCodewords (capOf s) ≤ dataCells s (17 + 4 * s.version.toNat) →
    dataCells s (17 + 4 * s.version.toNat) ≤ 8 * totalCodewords (capOf s) + 7 →
    ∃ t, exec .extract s = .next t ∧
      t = { s with stage := 3, cw := t.cw, cwCnt := BitVec.ofNat 13 (totalCodewords (capOf s)) } ∧
      (∀ p < totalCodewords (capOf s), ∀ i < 8,
        (readCw t p).getLsbD (7 - i) =
          (dataBits s (17 + 4 * s.version.toNat) fun _ _ => false).getD (8 * p + i) false) ∧
      ∀ p, totalCodewords (capOf s) ≤ p → readCw t p = readCw s p

/-- With another number of complete codewords EXTRACT records ModuleTraversalFailure and that number; the codewords that
were formed, up to `T`, are stored and the rest of `CW` is unchanged (43_extract.md R114, R116). -/
def Obligations.ExtractRecordsAWrongCount : Prop :=
  ∀ (s : State) (count : Nat), LegalVersion s →
    count = dataCells s (17 + 4 * s.version.toNat) / 8 → count ≠ totalCodewords (capOf s) →
    ∃ t, exec .extract s = .next t ∧
      t = { s with stage := 3, cw := t.cw, cwCnt := BitVec.ofNat 13 (min count 0x1FFF)
                   err := 4, errInfo := BitVec.ofNat 16 (min count 0xFFFF) } ∧
      (∀ p < min count (totalCodewords (capOf s)), ∀ i < 8,
        (readCw t p).getLsbD (7 - i) =
          (dataBits s (17 + 4 * s.version.toNat) fun _ _ => false).getD (8 * p + i) false) ∧
      ∀ p, min count (totalCodewords (capOf s)) ≤ p → readCw t p = readCw s p

/-! ## DEINT -/

/-- DEINT deals the stream to the places of the blocks in round-robin order, clears every `BSTAT`, and changes nothing
else but `STAGE`; an illegal version is a BadParameter(1) and no more (44_deinterleave.md R121, R122). -/
def Obligations.DeintDealsTheStreamRoundRobin : Prop :=
  decode 0x00000004 = .ok .deint ∧
  ∀ s : State,
    (¬LegalVersion s → exec .deint s = .next { s with err := 9, errInfo := 1 }) ∧
    (LegalVersion s →
      (dealOrder (capOf s)).length = totalCodewords (capOf s) ∧
      ∃ t, exec .deint s = .next t ∧
        t = { s with stage := 4, blk := t.blk, bstat := Vector.replicate 128 0 } ∧
        (∀ p b j, (dealOrder (capOf s))[p]? = some (b, j) → blkByte t b j = readCw s p) ∧
        ∀ a, (∀ b j, b < blockCount (capOf s) → j < blockTotal (capOf s) b → a ≠ 256 * b + j) →
          readBlk t a = readBlk s a)

/-- The closed form of the distribution: while no block is full byte `p` goes to block `p mod B` at offset `p / B`, and
where `n2 = n1 + 1` the bytes left over go to the longer blocks' last places (44_deinterleave.md R123). -/
def Obligations.DeintClosedForm : Prop :=
  ∀ s : State, LegalVersion s → ∃ t, exec .deint s = .next t ∧
    (∀ p, p < blockCount (capOf s) *
        (if 0 < (capOf s).c2 then min (capOf s).n1 (capOf s).n2 else (capOf s).n1) →
      blkByte t (p % blockCount (capOf s)) (p / blockCount (capOf s)) = readCw s p) ∧
    (0 < (capOf s).c2 → (capOf s).n2 = (capOf s).n1 + 1 →
      ∀ p, blockCount (capOf s) * (capOf s).n1 ≤ p → p < totalCodewords (capOf s) →
        blkByte t ((capOf s).c1 + (p - blockCount (capOf s) * (capOf s).n1)) (capOf s).n1 = readCw s p)

/-! ## SYND, RSCOR, RSALL -/

/-- SYND writes the `2t` syndromes of the block and its status, CLEAN when the block is a member of its code and DIRTY
otherwise, and changes nothing else but `STAGE` (45_reed_solomon.md R129). -/
def Obligations.SyndWritesSyndromesAndStatus : Prop :=
  ∀ (s : State) (b : Nat), LegalVersion s → b < blockCount (capOf s) →
    ∃ t, exec (.synd b) s = .next t ∧ t = { s with stage := 5, syn := t.syn, bstat := t.bstat } ∧
      (∀ a, readSyn t a =
        if 32 * b ≤ a ∧ a < 32 * b + 2 * capacityOf s b
        then powerSum s.params.raw (received s b) (a - 32 * b) else readSyn s a) ∧
      (InCode s.params.raw (capacityOf s b) (received s b) → bstatOf t b = 0x01) ∧
      (¬InCode s.params.raw (capacityOf s b) (received s b) → bstatOf t b = 0x02) ∧
      ∀ b', b' ≠ b → bstatOf t b' = bstatOf s b'

/-- RSCOR leaves a block that is a member of its code unchanged and marks it CLEAN (45_reed_solomon.md R130, R134,
first branch). -/
def Obligations.RscorLeavesAMemberUnchanged : Prop :=
  ∀ (s : State) (b : Nat), LegalVersion s → b < blockCount (capOf s) →
    InCode s.params.raw (capacityOf s b) (received s b) →
    ∃ t, exec (.rscor b) s = .next t ∧ t = { s with stage := 5, syn := t.syn, bstat := t.bstat } ∧
      (∀ a, readSyn t a =
        if 32 * b ≤ a ∧ a < 32 * b + 2 * capacityOf s b then 0 else readSyn s a) ∧
      ∀ b', bstatOf t b' = if b' = b then 0x01 else bstatOf s b'

/-- RSCOR moves a block to the member of its code within `t` bytes of it, if there is one, and marks it FIXED with the
number of bytes changed; `SYN` keeps the syndromes of the word as received (45_reed_solomon.md R134, second branch,
R135). The model finds the member by the reference procedure (DEDUCED, log 6). -/
def Obligations.RscorRestoresTheMemberWithinReach : Prop :=
  ∀ (s : State) (b : Nat) (c : List Byte), LegalVersion s → b < blockCount (capOf s) →
    ¬InCode s.params.raw (capacityOf s b) (received s b) → WithinReach s b c →
    ∃ t, exec (.rscor b) s = .next t ∧ t = { s with stage := 5, blk := t.blk, syn := t.syn, bstat := t.bstat } ∧
      (∀ a, readBlk t a =
        if 256 * b ≤ a ∧ a < 256 * b + blockTotal (capOf s) b then c.getD (a - 256 * b) 0 else readBlk s a) ∧
      (∀ a, readSyn t a =
        if 32 * b ≤ a ∧ a < 32 * b + 2 * capacityOf s b
        then powerSum s.params.raw (received s b) (a - 32 * b) else readSyn s a) ∧
      ∀ b', bstatOf t b' = if b' = b then BitVec.ofNat 8 (3 + 8 * dist (received s b) c) else bstatOf s b'

/-- RSCOR refuses a block with no member of its code within `t` bytes: BlockUncorrectable with the block's index, the
block as received (45_reed_solomon.md R134, third branch; 60_exceptions.md R154). -/
def Obligations.RscorRefusesABlockOutOfReach : Prop :=
  ∀ (s : State) (b : Nat), LegalVersion s → b < blockCount (capOf s) → (∀ c, ¬WithinReach s b c) →
    ∃ t, exec (.rscor b) s = .next t ∧
      t = { s with stage := 5, syn := t.syn, bstat := t.bstat, err := 5, errInfo := BitVec.ofNat 16 b } ∧
      (∀ a, readSyn t a =
        if 32 * b ≤ a ∧ a < 32 * b + 2 * capacityOf s b
        then powerSum s.params.raw (received s b) (a - 32 * b) else readSyn s a) ∧
      ∀ b', bstatOf t b' = if b' = b then 0x06 else bstatOf s b'

/-- However RSCOR finds it, a block ends as a member of its code within its capacity, or as received under
BlockUncorrectable (45_reed_solomon.md R134, R135). -/
def Obligations.RscorEndsInAMemberOrARefusal : Prop :=
  ∀ (s : State) (b : Nat), LegalVersion s → b < blockCount (capOf s) →
    ∃ t, exec (.rscor b) s = .next t ∧ t.stage = 5 ∧
      ((WithinReach s b (received t b) ∧ t.err = s.err ∧ t.errInfo = s.errInfo ∧
          bstatOf t b =
            if received t b = received s b then 0x01
            else BitVec.ofNat 8 (3 + 8 * dist (received s b) (received t b))) ∨
        (received t b = received s b ∧ t.err = 5 ∧ t.errInfo = BitVec.ofNat 16 b ∧ bstatOf t b = 0x06))

/-- RSALL moves every block to its member within reach, CLEAN where it was one already and FIXED otherwise, and changes
nothing else but `SYN` and `STAGE` (45_reed_solomon.md R139; log 6). -/
def Obligations.RsallRestoresEveryBlock : Prop :=
  ∀ (s : State) (c : Nat → List Byte), LegalVersion s → (∀ b < blockCount (capOf s), WithinReach s b (c b)) →
    ∃ t, exec .rsall s = .next t ∧ t = { s with stage := 5, blk := t.blk, syn := t.syn, bstat := t.bstat } ∧
      (∀ b < blockCount (capOf s), ∀ j < 256,
        blkByte t b j = if j < blockTotal (capOf s) b then (c b).getD j 0 else blkByte s b j) ∧
      (∀ a, 256 * blockCount (capOf s) ≤ a → readBlk t a = readBlk s a) ∧
      (∀ b < blockCount (capOf s), ∀ i < 32,
        synByte t b i = if i < 2 * capacityOf s b then powerSum s.params.raw (received s b) i else synByte s b i) ∧
      (∀ a, 32 * blockCount (capOf s) ≤ a → readSyn t a = readSyn s a) ∧
      ∀ b, bstatOf t b =
        if b < blockCount (capOf s) then
          (if received s b = c b then 0x01 else BitVec.ofNat 8 (3 + 8 * dist (received s b) (c b)))
        else bstatOf s b

/-- RSALL stops at the first block out of reach: BlockUncorrectable with its index, the blocks before it corrected, that
block as received, the blocks after it untouched (45_reed_solomon.md R139, 60_exceptions.md R161; log 6). -/
def Obligations.RsallStopsAtTheFirstBlockOutOfReach : Prop :=
  ∀ (s : State) (c : Nat → List Byte) (b0 : Nat), LegalVersion s → b0 < blockCount (capOf s) →
    (∀ b < b0, WithinReach s b (c b)) → (∀ d, ¬WithinReach s b0 d) →
    ∃ t, exec .rsall s = .next t ∧
      t = { s with stage := 5, blk := t.blk, syn := t.syn, bstat := t.bstat
                   err := 5, errInfo := BitVec.ofNat 16 b0 } ∧
      (∀ b < b0, ∀ j < 256,
        blkByte t b j = if j < blockTotal (capOf s) b then (c b).getD j 0 else blkByte s b j) ∧
      (∀ a, 256 * b0 ≤ a → readBlk t a = readBlk s a) ∧
      (∀ b ≤ b0, ∀ i < 32,
        synByte t b i = if i < 2 * capacityOf s b then powerSum s.params.raw (received s b) i else synByte s b i) ∧
      (∀ a, 32 * (b0 + 1) ≤ a → readSyn t a = readSyn s a) ∧
      ∀ b, bstatOf t b =
        if b < b0 then
          (if received s b = c b then 0x01 else BitVec.ofNat 8 (3 + 8 * dist (received s b) (c b)))
        else if b = b0 then 0x06 else bstatOf s b

/-- However RSALL finds them, the blocks end as members of their codes within their capacities, all of them or those
before the one it stops at, which stays as received (45_reed_solomon.md R139). -/
def Obligations.RsallEndsInMembersOrARefusal : Prop :=
  ∀ s : State, LegalVersion s → ∃ t, exec .rsall s = .next t ∧ t.stage = 5 ∧
    (((∀ b < blockCount (capOf s), WithinReach s b (received t b)) ∧ t.err = s.err ∧ t.errInfo = s.errInfo) ∨
      ∃ b0 < blockCount (capOf s), t.err = 5 ∧ t.errInfo = BitVec.ofNat 16 b0 ∧ bstatOf t b0 = 0x06 ∧
        (∀ b < b0, WithinReach s b (received t b)) ∧
        ∀ b, b0 ≤ b → b < blockCount (capOf s) → received t b = received s b)

/-! ## RUN -/

/-- RUN is the five stage commands issued one after the other by a host that stops at the first failure, but for its
version check in front (46_sequencing.md R143). -/
def Obligations.RunIsTheFiveStagesInOrder : Prop :=
  decode 0x00000008 = .ok .run ∧
  ∀ s : State,
    (¬LegalVersion s → exec .run s = .next { s with err := 9, errInfo := 1 }) ∧
    (LegalVersion s → s.err = 0 →
      exec .run s = issueAll [.fmtdec, .unmask, .extract, .deint, .rsall] s)

/-- RUN on a symbol without noise: when the format decodes from the primary word or, that failing, from the secondary, the
data cells give `T` codewords, and every block dealt from them is a member of its code, RUN succeeds, the blocks hold
what was dealt, every one is CLEAN, and nothing else changes but what the stages write
(46_sequencing.md R143, 95_test_vectors.md S6). -/
def Obligations.RunDecodesASymbolWithoutNoise : Prop :=
  ∀ (s : State) (copy : BitVec 1) (k : Nat) (w : BitVec 15) (c : CapRecord) (bits : List Bool),
    LegalVersion s → s.err = 0 → FormatFrom s copy k →
    w = formatWord s.params.raw k →
    c = capRecord s.params.raw s.version.toNat (levelOf (w.extractLsb' 13 2)) →
    bits = dataBits s (17 + 4 * s.version.toNat) (maskRule (w.extractLsb' 10 3).toNat) →
    8 * totalCodewords c ≤ bits.length → bits.length ≤ 8 * totalCodewords c + 7 →
    (∀ b < blockCount c, InCode s.params.raw (blockCapacity c b) (dealt c bits b)) →
    ∃ t, exec .run s = .next t ∧ t.err = 0 ∧ Decoded s t copy w c bits (dealt c bits) ∧
      (∀ b < blockCount c, received t b = dealt c bits b) ∧
      ∀ b, bstatOf t b = if b < blockCount c then 0x01 else 0

/-- RUN decodes a masked symbol: when the format decodes from the primary word or, that failing, from the secondary, the
data cells give `T` codewords, and every block dealt from them is within reach of a member of its code, RUN succeeds, the
blocks hold those members, and nothing else changes but what the stages write
(46_sequencing.md R143, 45_reed_solomon.md R135, 95_test_vectors.md S1, S7; log 6). -/
def Obligations.RunDecodesAMaskedSymbol : Prop :=
  ∀ (s : State) (copy : BitVec 1) (k : Nat) (w : BitVec 15) (c : CapRecord) (bits : List Bool)
    (members : Nat → List Byte),
    LegalVersion s → s.err = 0 → FormatFrom s copy k →
    w = formatWord s.params.raw k →
    c = capRecord s.params.raw s.version.toNat (levelOf (w.extractLsb' 13 2)) →
    bits = dataBits s (17 + 4 * s.version.toNat) (maskRule (w.extractLsb' 10 3).toNat) →
    8 * totalCodewords c ≤ bits.length → bits.length ≤ 8 * totalCodewords c + 7 →
    (∀ b < blockCount c,
      (members b).length = blockTotal c b ∧ InCode s.params.raw (blockCapacity c b) (members b) ∧
      dist (dealt c bits b) (members b) ≤ blockCapacity c b) →
    ∃ t, exec .run s = .next t ∧ Decoded s t copy w c bits members

/-! ## The whole machine -/

/-- Every step keeps the invariant of reachable states (10_state.md R44). -/
def Obligations.EveryStepKeepsTheInvariant : Prop :=
  ∀ s t : State, Inv s → step s = .next t → Inv t

/-- The reset state meets the invariant (10_state.md R42, R44). -/
def Obligations.ResetMeetsTheInvariant : Prop := Inv State.reset

/-- No step changes the parameters, and so none of the read-only tables (10_state.md R38). -/
def Obligations.NoStepChangesTheTables : Prop := ∀ s t : State, step s = .next t → t.params = s.params

/-- Which command writes which register and memory (10_state.md R21 to R28, R32 to R37; 20_memory.md R53): a command
that is not named leaves the place as it is. `STATUS.ERR` and `ERRINFO` change only by a failure of a kind that the
command raises, with its detail, and by SRST (60_exceptions.md R150, R157). The seed, on which every element that
nothing has written depends (log 1, 2), changes by SRST alone. -/
def Obligations.OnlyTheNamedCommandsWrite : Prop :=
  ∀ (i : Instr) (s t : State), exec i s = .next t →
    (t.version ≠ s.version ∨ t.fmtRaw0 ≠ s.fmtRaw0 ∨ t.fmtRaw1 ≠ s.fmtRaw1 → i = .srst) ∧
    (t.level ≠ s.level ∨ t.mask ≠ s.mask ∨ t.fmtWord ≠ s.fmtWord ∨ t.fmtValid ≠ s.fmtValid ∨ t.fmtCopy ≠ s.fmtCopy →
      i = .fmtdec ∨ i = .run ∨ i = .srst) ∧
    (t.grid ≠ s.grid → i = .unmask ∨ i = .run ∨ i = .srst) ∧
    (t.cw ≠ s.cw ∨ t.cwCnt ≠ s.cwCnt → i = .extract ∨ i = .run ∨ i = .srst) ∧
    (t.blk ≠ s.blk → i = .deint ∨ (∃ b, i = .rscor b) ∨ i = .rsall ∨ i = .run ∨ i = .srst) ∧
    (t.syn ≠ s.syn → (∃ b, i = .synd b) ∨ (∃ b, i = .rscor b) ∨ i = .rsall ∨ i = .run ∨ i = .srst) ∧
    (t.bstat ≠ s.bstat →
      i = .deint ∨ (∃ b, i = .synd b) ∨ (∃ b, i = .rscor b) ∨ i = .rsall ∨ i = .run ∨ i = .srst) ∧
    (t.err ≠ s.err ∨ t.errInfo ≠ s.errInfo →
      (t.err = 3 ∧ t.errInfo = 0 ∧ (i = .fmtdec ∨ i = .run)) ∨
      (t.err = 4 ∧ (i = .extract ∨ i = .run)) ∨
      (t.err = 5 ∧ ((∃ b, i = .rscor b ∧ t.errInfo = BitVec.ofNat 16 b) ∨ i = .rsall ∨ i = .run)) ∨
      (t.err = 9 ∧ t.errInfo = 1 ∧ i ≠ .nop ∧ i ≠ .fmtdec ∧ i ≠ .srst) ∨
      (t.err = 9 ∧ t.errInfo = 2 ∧ ∃ b, i = .synd b ∨ i = .rscor b) ∨
      (t.err = 0 ∧ t.errInfo = 0 ∧ i = .srst)) ∧
    (t.seed ≠ s.seed → i = .srst) ∧
    (t.stage ≠ s.stage → i ≠ .nop) ∧ t.params = s.params ∧ t.pending = s.pending ∧ t.reply = s.reply

/-- `STAGE` is never read: two states that differ in it alone run every command to states that differ in it at most
(10_state.md R20). -/
def Obligations.StageIsNeverRead : Prop :=
  ∀ (i : Instr) (s : State) (x : BitVec 3), ∃ t u, exec i s = .next t ∧ exec i { s with stage := x } = .next u ∧
    u = { t with stage := u.stage }
end

