-- ==== Sys2Proof/Laws/State.lean ====
section
/-!
SUPPORT. One lemma per field per update of the state, true by definition, so that no later proof unfolds a record
update.
-/

namespace Sys2Proof.Machine

section
variable (s : State)

/-! ## setStage -/

@[simp] theorem setStage_err (n : BitVec 3) : (setStage n s).err = s.err := rfl
@[simp] theorem setStage_stage (n : BitVec 3) : (setStage n s).stage = n := rfl
@[simp] theorem setStage_fmtValid (n : BitVec 3) : (setStage n s).fmtValid = s.fmtValid := rfl
@[simp] theorem setStage_fmtCopy (n : BitVec 3) : (setStage n s).fmtCopy = s.fmtCopy := rfl
@[simp] theorem setStage_errInfo (n : BitVec 3) : (setStage n s).errInfo = s.errInfo := rfl
@[simp] theorem setStage_version (n : BitVec 3) : (setStage n s).version = s.version := rfl
@[simp] theorem setStage_level (n : BitVec 3) : (setStage n s).level = s.level := rfl
@[simp] theorem setStage_mask (n : BitVec 3) : (setStage n s).mask = s.mask := rfl
@[simp] theorem setStage_fmtRaw0 (n : BitVec 3) : (setStage n s).fmtRaw0 = s.fmtRaw0 := rfl
@[simp] theorem setStage_fmtRaw1 (n : BitVec 3) : (setStage n s).fmtRaw1 = s.fmtRaw1 := rfl
@[simp] theorem setStage_fmtWord (n : BitVec 3) : (setStage n s).fmtWord = s.fmtWord := rfl
@[simp] theorem setStage_cwCnt (n : BitVec 3) : (setStage n s).cwCnt = s.cwCnt := rfl
@[simp] theorem setStage_grid (n : BitVec 3) : (setStage n s).grid = s.grid := rfl
@[simp] theorem setStage_cw (n : BitVec 3) : (setStage n s).cw = s.cw := rfl
@[simp] theorem setStage_blk (n : BitVec 3) : (setStage n s).blk = s.blk := rfl
@[simp] theorem setStage_syn (n : BitVec 3) : (setStage n s).syn = s.syn := rfl
@[simp] theorem setStage_bstat (n : BitVec 3) : (setStage n s).bstat = s.bstat := rfl
@[simp] theorem setStage_params (n : BitVec 3) : (setStage n s).params = s.params := rfl
@[simp] theorem setStage_seed (n : BitVec 3) : (setStage n s).seed = s.seed := rfl
@[simp] theorem setStage_pending (n : BitVec 3) : (setStage n s).pending = s.pending := rfl
@[simp] theorem setStage_reply (n : BitVec 3) : (setStage n s).reply = s.reply := rfl

/-! ## setGridCell -/

@[simp] theorem setGridCell_err (x y : Nat) (c : Cell) : (setGridCell x y c s).err = s.err := rfl
@[simp] theorem setGridCell_stage (x y : Nat) (c : Cell) : (setGridCell x y c s).stage = s.stage := rfl
@[simp] theorem setGridCell_fmtValid (x y : Nat) (c : Cell) : (setGridCell x y c s).fmtValid = s.fmtValid := rfl
@[simp] theorem setGridCell_fmtCopy (x y : Nat) (c : Cell) : (setGridCell x y c s).fmtCopy = s.fmtCopy := rfl
@[simp] theorem setGridCell_errInfo (x y : Nat) (c : Cell) : (setGridCell x y c s).errInfo = s.errInfo := rfl
@[simp] theorem setGridCell_version (x y : Nat) (c : Cell) : (setGridCell x y c s).version = s.version := rfl
@[simp] theorem setGridCell_level (x y : Nat) (c : Cell) : (setGridCell x y c s).level = s.level := rfl
@[simp] theorem setGridCell_mask (x y : Nat) (c : Cell) : (setGridCell x y c s).mask = s.mask := rfl
@[simp] theorem setGridCell_fmtRaw0 (x y : Nat) (c : Cell) : (setGridCell x y c s).fmtRaw0 = s.fmtRaw0 := rfl
@[simp] theorem setGridCell_fmtRaw1 (x y : Nat) (c : Cell) : (setGridCell x y c s).fmtRaw1 = s.fmtRaw1 := rfl
@[simp] theorem setGridCell_fmtWord (x y : Nat) (c : Cell) : (setGridCell x y c s).fmtWord = s.fmtWord := rfl
@[simp] theorem setGridCell_cwCnt (x y : Nat) (c : Cell) : (setGridCell x y c s).cwCnt = s.cwCnt := rfl
@[simp] theorem setGridCell_grid (x y : Nat) (c : Cell) : (setGridCell x y c s).grid = Memory.write s.grid (256 * y + x) (cellCode c) := rfl
@[simp] theorem setGridCell_cw (x y : Nat) (c : Cell) : (setGridCell x y c s).cw = s.cw := rfl
@[simp] theorem setGridCell_blk (x y : Nat) (c : Cell) : (setGridCell x y c s).blk = s.blk := rfl
@[simp] theorem setGridCell_syn (x y : Nat) (c : Cell) : (setGridCell x y c s).syn = s.syn := rfl
@[simp] theorem setGridCell_bstat (x y : Nat) (c : Cell) : (setGridCell x y c s).bstat = s.bstat := rfl
@[simp] theorem setGridCell_params (x y : Nat) (c : Cell) : (setGridCell x y c s).params = s.params := rfl
@[simp] theorem setGridCell_seed (x y : Nat) (c : Cell) : (setGridCell x y c s).seed = s.seed := rfl
@[simp] theorem setGridCell_pending (x y : Nat) (c : Cell) : (setGridCell x y c s).pending = s.pending := rfl
@[simp] theorem setGridCell_reply (x y : Nat) (c : Cell) : (setGridCell x y c s).reply = s.reply := rfl

/-! ## setCw -/

@[simp] theorem setCw_err (p : Nat) (v : Byte) : (setCw p v s).err = s.err := rfl
@[simp] theorem setCw_stage (p : Nat) (v : Byte) : (setCw p v s).stage = s.stage := rfl
@[simp] theorem setCw_fmtValid (p : Nat) (v : Byte) : (setCw p v s).fmtValid = s.fmtValid := rfl
@[simp] theorem setCw_fmtCopy (p : Nat) (v : Byte) : (setCw p v s).fmtCopy = s.fmtCopy := rfl
@[simp] theorem setCw_errInfo (p : Nat) (v : Byte) : (setCw p v s).errInfo = s.errInfo := rfl
@[simp] theorem setCw_version (p : Nat) (v : Byte) : (setCw p v s).version = s.version := rfl
@[simp] theorem setCw_level (p : Nat) (v : Byte) : (setCw p v s).level = s.level := rfl
@[simp] theorem setCw_mask (p : Nat) (v : Byte) : (setCw p v s).mask = s.mask := rfl
@[simp] theorem setCw_fmtRaw0 (p : Nat) (v : Byte) : (setCw p v s).fmtRaw0 = s.fmtRaw0 := rfl
@[simp] theorem setCw_fmtRaw1 (p : Nat) (v : Byte) : (setCw p v s).fmtRaw1 = s.fmtRaw1 := rfl
@[simp] theorem setCw_fmtWord (p : Nat) (v : Byte) : (setCw p v s).fmtWord = s.fmtWord := rfl
@[simp] theorem setCw_cwCnt (p : Nat) (v : Byte) : (setCw p v s).cwCnt = s.cwCnt := rfl
@[simp] theorem setCw_grid (p : Nat) (v : Byte) : (setCw p v s).grid = s.grid := rfl
@[simp] theorem setCw_cw (p : Nat) (v : Byte) : (setCw p v s).cw = Memory.write s.cw p v := rfl
@[simp] theorem setCw_blk (p : Nat) (v : Byte) : (setCw p v s).blk = s.blk := rfl
@[simp] theorem setCw_syn (p : Nat) (v : Byte) : (setCw p v s).syn = s.syn := rfl
@[simp] theorem setCw_bstat (p : Nat) (v : Byte) : (setCw p v s).bstat = s.bstat := rfl
@[simp] theorem setCw_params (p : Nat) (v : Byte) : (setCw p v s).params = s.params := rfl
@[simp] theorem setCw_seed (p : Nat) (v : Byte) : (setCw p v s).seed = s.seed := rfl
@[simp] theorem setCw_pending (p : Nat) (v : Byte) : (setCw p v s).pending = s.pending := rfl
@[simp] theorem setCw_reply (p : Nat) (v : Byte) : (setCw p v s).reply = s.reply := rfl

/-! ## setBlkByte -/

@[simp] theorem setBlkByte_err (b j : Nat) (v : Byte) : (setBlkByte b j v s).err = s.err := rfl
@[simp] theorem setBlkByte_stage (b j : Nat) (v : Byte) : (setBlkByte b j v s).stage = s.stage := rfl
@[simp] theorem setBlkByte_fmtValid (b j : Nat) (v : Byte) : (setBlkByte b j v s).fmtValid = s.fmtValid := rfl
@[simp] theorem setBlkByte_fmtCopy (b j : Nat) (v : Byte) : (setBlkByte b j v s).fmtCopy = s.fmtCopy := rfl
@[simp] theorem setBlkByte_errInfo (b j : Nat) (v : Byte) : (setBlkByte b j v s).errInfo = s.errInfo := rfl
@[simp] theorem setBlkByte_version (b j : Nat) (v : Byte) : (setBlkByte b j v s).version = s.version := rfl
@[simp] theorem setBlkByte_level (b j : Nat) (v : Byte) : (setBlkByte b j v s).level = s.level := rfl
@[simp] theorem setBlkByte_mask (b j : Nat) (v : Byte) : (setBlkByte b j v s).mask = s.mask := rfl
@[simp] theorem setBlkByte_fmtRaw0 (b j : Nat) (v : Byte) : (setBlkByte b j v s).fmtRaw0 = s.fmtRaw0 := rfl
@[simp] theorem setBlkByte_fmtRaw1 (b j : Nat) (v : Byte) : (setBlkByte b j v s).fmtRaw1 = s.fmtRaw1 := rfl
@[simp] theorem setBlkByte_fmtWord (b j : Nat) (v : Byte) : (setBlkByte b j v s).fmtWord = s.fmtWord := rfl
@[simp] theorem setBlkByte_cwCnt (b j : Nat) (v : Byte) : (setBlkByte b j v s).cwCnt = s.cwCnt := rfl
@[simp] theorem setBlkByte_grid (b j : Nat) (v : Byte) : (setBlkByte b j v s).grid = s.grid := rfl
@[simp] theorem setBlkByte_cw (b j : Nat) (v : Byte) : (setBlkByte b j v s).cw = s.cw := rfl
@[simp] theorem setBlkByte_blk (b j : Nat) (v : Byte) : (setBlkByte b j v s).blk = Memory.write s.blk (256 * b + j) v := rfl
@[simp] theorem setBlkByte_syn (b j : Nat) (v : Byte) : (setBlkByte b j v s).syn = s.syn := rfl
@[simp] theorem setBlkByte_bstat (b j : Nat) (v : Byte) : (setBlkByte b j v s).bstat = s.bstat := rfl
@[simp] theorem setBlkByte_params (b j : Nat) (v : Byte) : (setBlkByte b j v s).params = s.params := rfl
@[simp] theorem setBlkByte_seed (b j : Nat) (v : Byte) : (setBlkByte b j v s).seed = s.seed := rfl
@[simp] theorem setBlkByte_pending (b j : Nat) (v : Byte) : (setBlkByte b j v s).pending = s.pending := rfl
@[simp] theorem setBlkByte_reply (b j : Nat) (v : Byte) : (setBlkByte b j v s).reply = s.reply := rfl

/-! ## setSynByte -/

@[simp] theorem setSynByte_err (b i : Nat) (v : Byte) : (setSynByte b i v s).err = s.err := rfl
@[simp] theorem setSynByte_stage (b i : Nat) (v : Byte) : (setSynByte b i v s).stage = s.stage := rfl
@[simp] theorem setSynByte_fmtValid (b i : Nat) (v : Byte) : (setSynByte b i v s).fmtValid = s.fmtValid := rfl
@[simp] theorem setSynByte_fmtCopy (b i : Nat) (v : Byte) : (setSynByte b i v s).fmtCopy = s.fmtCopy := rfl
@[simp] theorem setSynByte_errInfo (b i : Nat) (v : Byte) : (setSynByte b i v s).errInfo = s.errInfo := rfl
@[simp] theorem setSynByte_version (b i : Nat) (v : Byte) : (setSynByte b i v s).version = s.version := rfl
@[simp] theorem setSynByte_level (b i : Nat) (v : Byte) : (setSynByte b i v s).level = s.level := rfl
@[simp] theorem setSynByte_mask (b i : Nat) (v : Byte) : (setSynByte b i v s).mask = s.mask := rfl
@[simp] theorem setSynByte_fmtRaw0 (b i : Nat) (v : Byte) : (setSynByte b i v s).fmtRaw0 = s.fmtRaw0 := rfl
@[simp] theorem setSynByte_fmtRaw1 (b i : Nat) (v : Byte) : (setSynByte b i v s).fmtRaw1 = s.fmtRaw1 := rfl
@[simp] theorem setSynByte_fmtWord (b i : Nat) (v : Byte) : (setSynByte b i v s).fmtWord = s.fmtWord := rfl
@[simp] theorem setSynByte_cwCnt (b i : Nat) (v : Byte) : (setSynByte b i v s).cwCnt = s.cwCnt := rfl
@[simp] theorem setSynByte_grid (b i : Nat) (v : Byte) : (setSynByte b i v s).grid = s.grid := rfl
@[simp] theorem setSynByte_cw (b i : Nat) (v : Byte) : (setSynByte b i v s).cw = s.cw := rfl
@[simp] theorem setSynByte_blk (b i : Nat) (v : Byte) : (setSynByte b i v s).blk = s.blk := rfl
@[simp] theorem setSynByte_syn (b i : Nat) (v : Byte) : (setSynByte b i v s).syn = Memory.write s.syn (32 * b + i) v := rfl
@[simp] theorem setSynByte_bstat (b i : Nat) (v : Byte) : (setSynByte b i v s).bstat = s.bstat := rfl
@[simp] theorem setSynByte_params (b i : Nat) (v : Byte) : (setSynByte b i v s).params = s.params := rfl
@[simp] theorem setSynByte_seed (b i : Nat) (v : Byte) : (setSynByte b i v s).seed = s.seed := rfl
@[simp] theorem setSynByte_pending (b i : Nat) (v : Byte) : (setSynByte b i v s).pending = s.pending := rfl
@[simp] theorem setSynByte_reply (b i : Nat) (v : Byte) : (setSynByte b i v s).reply = s.reply := rfl

/-! ## setBstat -/

@[simp] theorem setBstat_err (b : Nat) (v : Byte) : (setBstat b v s).err = s.err := rfl
@[simp] theorem setBstat_stage (b : Nat) (v : Byte) : (setBstat b v s).stage = s.stage := rfl
@[simp] theorem setBstat_fmtValid (b : Nat) (v : Byte) : (setBstat b v s).fmtValid = s.fmtValid := rfl
@[simp] theorem setBstat_fmtCopy (b : Nat) (v : Byte) : (setBstat b v s).fmtCopy = s.fmtCopy := rfl
@[simp] theorem setBstat_errInfo (b : Nat) (v : Byte) : (setBstat b v s).errInfo = s.errInfo := rfl
@[simp] theorem setBstat_version (b : Nat) (v : Byte) : (setBstat b v s).version = s.version := rfl
@[simp] theorem setBstat_level (b : Nat) (v : Byte) : (setBstat b v s).level = s.level := rfl
@[simp] theorem setBstat_mask (b : Nat) (v : Byte) : (setBstat b v s).mask = s.mask := rfl
@[simp] theorem setBstat_fmtRaw0 (b : Nat) (v : Byte) : (setBstat b v s).fmtRaw0 = s.fmtRaw0 := rfl
@[simp] theorem setBstat_fmtRaw1 (b : Nat) (v : Byte) : (setBstat b v s).fmtRaw1 = s.fmtRaw1 := rfl
@[simp] theorem setBstat_fmtWord (b : Nat) (v : Byte) : (setBstat b v s).fmtWord = s.fmtWord := rfl
@[simp] theorem setBstat_cwCnt (b : Nat) (v : Byte) : (setBstat b v s).cwCnt = s.cwCnt := rfl
@[simp] theorem setBstat_grid (b : Nat) (v : Byte) : (setBstat b v s).grid = s.grid := rfl
@[simp] theorem setBstat_cw (b : Nat) (v : Byte) : (setBstat b v s).cw = s.cw := rfl
@[simp] theorem setBstat_blk (b : Nat) (v : Byte) : (setBstat b v s).blk = s.blk := rfl
@[simp] theorem setBstat_syn (b : Nat) (v : Byte) : (setBstat b v s).syn = s.syn := rfl
@[simp] theorem setBstat_bstat (b : Nat) (v : Byte) : (setBstat b v s).bstat = s.bstat.setIfInBounds b v := rfl
@[simp] theorem setBstat_params (b : Nat) (v : Byte) : (setBstat b v s).params = s.params := rfl
@[simp] theorem setBstat_seed (b : Nat) (v : Byte) : (setBstat b v s).seed = s.seed := rfl
@[simp] theorem setBstat_pending (b : Nat) (v : Byte) : (setBstat b v s).pending = s.pending := rfl
@[simp] theorem setBstat_reply (b : Nat) (v : Byte) : (setBstat b v s).reply = s.reply := rfl

/-! ## clearBstat -/

@[simp] theorem clearBstat_err : (clearBstat s).err = s.err := rfl
@[simp] theorem clearBstat_stage : (clearBstat s).stage = s.stage := rfl
@[simp] theorem clearBstat_fmtValid : (clearBstat s).fmtValid = s.fmtValid := rfl
@[simp] theorem clearBstat_fmtCopy : (clearBstat s).fmtCopy = s.fmtCopy := rfl
@[simp] theorem clearBstat_errInfo : (clearBstat s).errInfo = s.errInfo := rfl
@[simp] theorem clearBstat_version : (clearBstat s).version = s.version := rfl
@[simp] theorem clearBstat_level : (clearBstat s).level = s.level := rfl
@[simp] theorem clearBstat_mask : (clearBstat s).mask = s.mask := rfl
@[simp] theorem clearBstat_fmtRaw0 : (clearBstat s).fmtRaw0 = s.fmtRaw0 := rfl
@[simp] theorem clearBstat_fmtRaw1 : (clearBstat s).fmtRaw1 = s.fmtRaw1 := rfl
@[simp] theorem clearBstat_fmtWord : (clearBstat s).fmtWord = s.fmtWord := rfl
@[simp] theorem clearBstat_cwCnt : (clearBstat s).cwCnt = s.cwCnt := rfl
@[simp] theorem clearBstat_grid : (clearBstat s).grid = s.grid := rfl
@[simp] theorem clearBstat_cw : (clearBstat s).cw = s.cw := rfl
@[simp] theorem clearBstat_blk : (clearBstat s).blk = s.blk := rfl
@[simp] theorem clearBstat_syn : (clearBstat s).syn = s.syn := rfl
@[simp] theorem clearBstat_bstat : (clearBstat s).bstat = Vector.replicate 128 0 := rfl
@[simp] theorem clearBstat_params : (clearBstat s).params = s.params := rfl
@[simp] theorem clearBstat_seed : (clearBstat s).seed = s.seed := rfl
@[simp] theorem clearBstat_pending : (clearBstat s).pending = s.pending := rfl
@[simp] theorem clearBstat_reply : (clearBstat s).reply = s.reply := rfl

/-! ## recordFailure -/

@[simp] theorem recordFailure_err (k : FailKind) (info : Nat) : (recordFailure k info s).err = failCode k := rfl
@[simp] theorem recordFailure_stage (k : FailKind) (info : Nat) : (recordFailure k info s).stage = s.stage := rfl
@[simp] theorem recordFailure_fmtValid (k : FailKind) (info : Nat) : (recordFailure k info s).fmtValid = s.fmtValid := rfl
@[simp] theorem recordFailure_fmtCopy (k : FailKind) (info : Nat) : (recordFailure k info s).fmtCopy = s.fmtCopy := rfl
@[simp] theorem recordFailure_errInfo (k : FailKind) (info : Nat) : (recordFailure k info s).errInfo = BitVec.ofNat 16 info := rfl
@[simp] theorem recordFailure_version (k : FailKind) (info : Nat) : (recordFailure k info s).version = s.version := rfl
@[simp] theorem recordFailure_level (k : FailKind) (info : Nat) : (recordFailure k info s).level = s.level := rfl
@[simp] theorem recordFailure_mask (k : FailKind) (info : Nat) : (recordFailure k info s).mask = s.mask := rfl
@[simp] theorem recordFailure_fmtRaw0 (k : FailKind) (info : Nat) : (recordFailure k info s).fmtRaw0 = s.fmtRaw0 := rfl
@[simp] theorem recordFailure_fmtRaw1 (k : FailKind) (info : Nat) : (recordFailure k info s).fmtRaw1 = s.fmtRaw1 := rfl
@[simp] theorem recordFailure_fmtWord (k : FailKind) (info : Nat) : (recordFailure k info s).fmtWord = s.fmtWord := rfl
@[simp] theorem recordFailure_cwCnt (k : FailKind) (info : Nat) : (recordFailure k info s).cwCnt = s.cwCnt := rfl
@[simp] theorem recordFailure_grid (k : FailKind) (info : Nat) : (recordFailure k info s).grid = s.grid := rfl
@[simp] theorem recordFailure_cw (k : FailKind) (info : Nat) : (recordFailure k info s).cw = s.cw := rfl
@[simp] theorem recordFailure_blk (k : FailKind) (info : Nat) : (recordFailure k info s).blk = s.blk := rfl
@[simp] theorem recordFailure_syn (k : FailKind) (info : Nat) : (recordFailure k info s).syn = s.syn := rfl
@[simp] theorem recordFailure_bstat (k : FailKind) (info : Nat) : (recordFailure k info s).bstat = s.bstat := rfl
@[simp] theorem recordFailure_params (k : FailKind) (info : Nat) : (recordFailure k info s).params = s.params := rfl
@[simp] theorem recordFailure_seed (k : FailKind) (info : Nat) : (recordFailure k info s).seed = s.seed := rfl
@[simp] theorem recordFailure_pending (k : FailKind) (info : Nat) : (recordFailure k info s).pending = s.pending := rfl
@[simp] theorem recordFailure_reply (k : FailKind) (info : Nat) : (recordFailure k info s).reply = s.reply := rfl

/-! ## fmtAccept -/

@[simp] theorem fmtAccept_err (c : BitVec 1) (k : Nat) : (fmtAccept c k s).err = s.err := rfl
@[simp] theorem fmtAccept_stage (c : BitVec 1) (k : Nat) : (fmtAccept c k s).stage = s.stage := rfl
@[simp] theorem fmtAccept_fmtValid (c : BitVec 1) (k : Nat) : (fmtAccept c k s).fmtValid = 1 := rfl
@[simp] theorem fmtAccept_fmtCopy (c : BitVec 1) (k : Nat) : (fmtAccept c k s).fmtCopy = c := rfl
@[simp] theorem fmtAccept_errInfo (c : BitVec 1) (k : Nat) : (fmtAccept c k s).errInfo = s.errInfo := rfl
@[simp] theorem fmtAccept_version (c : BitVec 1) (k : Nat) : (fmtAccept c k s).version = s.version := rfl
@[simp] theorem fmtAccept_level (c : BitVec 1) (k : Nat) : (fmtAccept c k s).level = (fmtEntry s.params.raw k ^^^ fmtXor).extractLsb' 13 2 := rfl
@[simp] theorem fmtAccept_mask (c : BitVec 1) (k : Nat) : (fmtAccept c k s).mask = (fmtEntry s.params.raw k ^^^ fmtXor).extractLsb' 10 3 := rfl
@[simp] theorem fmtAccept_fmtRaw0 (c : BitVec 1) (k : Nat) : (fmtAccept c k s).fmtRaw0 = s.fmtRaw0 := rfl
@[simp] theorem fmtAccept_fmtRaw1 (c : BitVec 1) (k : Nat) : (fmtAccept c k s).fmtRaw1 = s.fmtRaw1 := rfl
@[simp] theorem fmtAccept_fmtWord (c : BitVec 1) (k : Nat) : (fmtAccept c k s).fmtWord = fmtEntry s.params.raw k ^^^ fmtXor := rfl
@[simp] theorem fmtAccept_cwCnt (c : BitVec 1) (k : Nat) : (fmtAccept c k s).cwCnt = s.cwCnt := rfl
@[simp] theorem fmtAccept_grid (c : BitVec 1) (k : Nat) : (fmtAccept c k s).grid = s.grid := rfl
@[simp] theorem fmtAccept_cw (c : BitVec 1) (k : Nat) : (fmtAccept c k s).cw = s.cw := rfl
@[simp] theorem fmtAccept_blk (c : BitVec 1) (k : Nat) : (fmtAccept c k s).blk = s.blk := rfl
@[simp] theorem fmtAccept_syn (c : BitVec 1) (k : Nat) : (fmtAccept c k s).syn = s.syn := rfl
@[simp] theorem fmtAccept_bstat (c : BitVec 1) (k : Nat) : (fmtAccept c k s).bstat = s.bstat := rfl
@[simp] theorem fmtAccept_params (c : BitVec 1) (k : Nat) : (fmtAccept c k s).params = s.params := rfl
@[simp] theorem fmtAccept_seed (c : BitVec 1) (k : Nat) : (fmtAccept c k s).seed = s.seed := rfl
@[simp] theorem fmtAccept_pending (c : BitVec 1) (k : Nat) : (fmtAccept c k s).pending = s.pending := rfl
@[simp] theorem fmtAccept_reply (c : BitVec 1) (k : Nat) : (fmtAccept c k s).reply = s.reply := rfl

/-! ## resetBlock -/

@[simp] theorem resetBlock_err : (resetBlock s).err = 0 := rfl
@[simp] theorem resetBlock_stage : (resetBlock s).stage = 0 := rfl
@[simp] theorem resetBlock_fmtValid : (resetBlock s).fmtValid = 0 := rfl
@[simp] theorem resetBlock_fmtCopy : (resetBlock s).fmtCopy = 0 := rfl
@[simp] theorem resetBlock_errInfo : (resetBlock s).errInfo = 0 := rfl
@[simp] theorem resetBlock_version : (resetBlock s).version = 0 := rfl
@[simp] theorem resetBlock_level : (resetBlock s).level = 0 := rfl
@[simp] theorem resetBlock_mask : (resetBlock s).mask = 0 := rfl
@[simp] theorem resetBlock_fmtRaw0 : (resetBlock s).fmtRaw0 = 0 := rfl
@[simp] theorem resetBlock_fmtRaw1 : (resetBlock s).fmtRaw1 = 0 := rfl
@[simp] theorem resetBlock_fmtWord : (resetBlock s).fmtWord = 0 := rfl
@[simp] theorem resetBlock_cwCnt : (resetBlock s).cwCnt = 0 := rfl
@[simp] theorem resetBlock_grid : (resetBlock s).grid = [] := rfl
@[simp] theorem resetBlock_cw : (resetBlock s).cw = [] := rfl
@[simp] theorem resetBlock_blk : (resetBlock s).blk = [] := rfl
@[simp] theorem resetBlock_syn : (resetBlock s).syn = [] := rfl
@[simp] theorem resetBlock_bstat : (resetBlock s).bstat = Vector.replicate 128 0 := rfl
@[simp] theorem resetBlock_params : (resetBlock s).params = s.params := rfl
@[simp] theorem resetBlock_seed : (resetBlock s).seed = Config.reseed s.seed [s.grid, s.cw, s.blk, s.syn] := rfl
@[simp] theorem resetBlock_pending : (resetBlock s).pending = s.pending := rfl
@[simp] theorem resetBlock_reply : (resetBlock s).reply = s.reply := rfl

/-! ## The end of a body -/

@[simp] theorem Flow.state_goesOn : (Flow.goesOn s).state = s := rfl
@[simp] theorem Flow.state_ended : (Flow.ended s).state = s := rfl
@[simp] theorem Flow.goesOn_andThen (g : State → Flow) : (Flow.goesOn s).andThen g = g s := rfl
@[simp] theorem Flow.ended_andThen (g : State → Flow) : (Flow.ended s).andThen g = .ended s := rfl

end

end Sys2Proof.Machine
end

