-- ==== Sys2Proof/Laws/Memory.lean ====
section
/-!
SUPPORT. What a memory answers after a write, and that every write keeps the canonical form.
-/

namespace Sys2Proof.Machine

@[simp] theorem Memory.read_nil (free : Nat → Byte) (a : Nat) : Memory.read free [] a = free a := rfl

theorem Memory.read_cons (free : Nat → Byte) (b : Nat) (v : Byte) (m : Memory) (a : Nat) :
    Memory.read free ((b, v) :: m) a = if a = b then v else Memory.read free m a := rfl

/-- The one law of a write: the written index reads the value, every other index reads as before. It holds of every
list, in canonical form or not. -/
theorem Memory.read_write (free : Nat → Byte) (m : Memory) (a b : Nat) (v : Byte) :
    Memory.read free (Memory.write m a v) b = if b = a then v else Memory.read free m b := by
  induction m with
  | nil => simp [Memory.write, Memory.read_cons]
  | cons e m ih =>
    obtain ⟨i, w⟩ := e
    simp only [Memory.write]
    split
    · simp only [Memory.read_cons]
    · split
      · rename_i h
        subst h
        simp only [Memory.read_cons]
        split <;> rfl
      · rename_i hne
        simp only [Memory.read_cons, ih]
        split
        · rename_i h
          subst h
          simp [Ne.symm hne]
        · rfl

@[simp] theorem Memory.read_write_same (free : Nat → Byte) (m : Memory) (a : Nat) (v : Byte) :
    Memory.read free (Memory.write m a v) a = v := by simp [Memory.read_write]

theorem Memory.read_write_other (free : Nat → Byte) (m : Memory) {a b : Nat} (v : Byte) (h : b ≠ a) :
    Memory.read free (Memory.write m a v) b = Memory.read free m b := by simp [Memory.read_write, h]

/-- The indices of a written memory are the old ones and the written one. -/
theorem Memory.mem_write {m : Memory} {a : Nat} {v : Byte} {e : Host.Cell} (h : e ∈ Memory.write m a v) :
    e = (a, v) ∨ e ∈ m := by
  induction m with
  | nil => simpa [Memory.write] using h
  | cons x m ih =>
    simp only [Memory.write] at h
    split at h
    · simpa using h
    · split at h
      · rcases List.mem_cons.1 h with h | h
        · exact .inl h
        · exact .inr (List.mem_cons_of_mem _ h)
      · rcases List.mem_cons.1 h with h | h
        · exact .inr (h ▸ List.mem_cons_self)
        · exact (ih h).imp id (List.mem_cons_of_mem _)

/-- A write keeps the canonical form. -/
theorem Memory.write_wf {m : Memory} (h : Memory.wf m) (a : Nat) (v : Byte) : Memory.wf (Memory.write m a v) := by
  induction m with
  | nil => simp [Memory.write, Memory.wf]
  | cons x m ih =>
    obtain ⟨hx, hm⟩ := List.pairwise_cons.1 h
    simp only [Memory.write]
    split
    · rename_i hlt
      refine List.pairwise_cons.2 ⟨?_, h⟩
      intro y hy
      rcases List.mem_cons.1 hy with hy | hy
      · exact hy ▸ hlt
      · exact Nat.lt_trans hlt (hx y hy)
    · split
      · rename_i heq
        refine List.pairwise_cons.2 ⟨?_, hm⟩
        intro y hy
        simpa [heq] using hx y hy
      · rename_i hnlt hne
        refine List.pairwise_cons.2 ⟨?_, ih hm⟩
        intro y hy
        rcases Memory.mem_write hy with hy | hy
        · subst hy
          simp only
          omega
        · exact hx y hy

/-- The memories of the reset state are in canonical form. -/
theorem reset_memories_wf :
    Memory.wf State.reset.grid ∧ Memory.wf State.reset.cw ∧ Memory.wf State.reset.blk ∧ Memory.wf State.reset.syn :=
  ⟨.nil, .nil, .nil, .nil⟩

end Sys2Proof.Machine
end

