-- ==== Sys2Proof/Laws/Ops.lean ====
section
/-!
SUPPORT. One lemma per shared operation that says what it can do: the accessors of the four memories and of the block
status, the ends of a body, the two parameter checks, and the bounds that well-formed parameters give.
-/

namespace Sys2Proof.Machine

/-! ## Cells -/

@[simp] theorem cellOfCode_cellCode (c : Cell) : cellOfCode ((cellCode c).extractLsb' 0 2) = c := by
  cases c <;> decide

@[simp] theorem flipCell_flipCell (c : Cell) : flipCell (flipCell c) = c := by cases c <;> rfl

theorem flipCell_eq_function_iff (c : Cell) : flipCell c = .function ↔ c = .function := by
  cases c <;> simp [flipCell]

/-! ## Reads after writes -/

theorem readGrid_setGridCell (s : State) (x y a : Nat) (c : Cell) :
    readGrid (setGridCell x y c s) a = if a = 256 * y + x then cellCode c else readGrid s a := by
  simp [readGrid, Memory.read_write]

/-- A cell write changes that cell alone (20_memory.md R55). -/
theorem gridCell_setGridCell (s : State) {x y x' y' : Nat} (hx : x < 256) (hx' : x' < 256) (c : Cell) :
    gridCell (setGridCell x y c s) x' y' = if x' = x ∧ y' = y then c else gridCell s x' y' := by
  have h : 256 * y' + x' = 256 * y + x ↔ x' = x ∧ y' = y := by omega
  simp only [gridCell, readGrid_setGridCell, h]
  split <;> simp_all

theorem readCw_setCw (s : State) (p q : Nat) (v : Byte) :
    readCw (setCw p v s) q = if q = p then v else readCw s q := by simp [readCw, Memory.read_write]

theorem readBlk_setBlkByte (s : State) (b j a : Nat) (v : Byte) :
    readBlk (setBlkByte b j v s) a = if a = 256 * b + j then v else readBlk s a := by
  simp [readBlk, Memory.read_write]

/-- A byte write of a block changes that byte alone (20_memory.md R57). -/
theorem blkByte_setBlkByte (s : State) {b j b' j' : Nat} (hj : j < 256) (hj' : j' < 256) (v : Byte) :
    blkByte (setBlkByte b j v s) b' j' = if b' = b ∧ j' = j then v else blkByte s b' j' := by
  have h : 256 * b' + j' = 256 * b + j ↔ b' = b ∧ j' = j := by omega
  simp only [blkByte, readBlk_setBlkByte, h]

theorem readSyn_setSynByte (s : State) (b i a : Nat) (v : Byte) :
    readSyn (setSynByte b i v s) a = if a = 32 * b + i then v else readSyn s a := by
  simp [readSyn, Memory.read_write]

theorem bstatOf_setBstat (s : State) (b c : Nat) (v : Byte) :
    bstatOf (setBstat b v s) c = if c = b ∧ b < 128 then v else bstatOf s c := by
  simp only [bstatOf, setBstat_bstat, Vector.getElem?_setIfInBounds]
  by_cases h : b = c
  · subst h
    by_cases hb : b < 128 <;> simp [hb]
  · simp [h, Ne.symm h]

theorem bstatOf_clearBstat (s : State) (b : Nat) : bstatOf (clearBstat s) b = 0 := by
  simp only [bstatOf, clearBstat_bstat, Vector.getElem?_replicate]
  split <;> rfl

/-! ## Rows -/

/-- A row write of a block: nothing but `BLK` changes, and in it the listed bytes alone (45_reed_solomon.md R134). -/
theorem setBlkFrom_spec (b : Nat) (vs : List Byte) (j : Nat) (s : State) :
    setBlkFrom b j vs s = { s with blk := (setBlkFrom b j vs s).blk } ∧
    ∀ a, readBlk (setBlkFrom b j vs s) a =
      if 256 * b + j ≤ a ∧ a < 256 * b + j + vs.length then vs.getD (a - (256 * b + j)) 0 else readBlk s a := by
  induction vs generalizing j s with
  | nil =>
    refine ⟨rfl, fun a => ?_⟩
    simp [setBlkFrom]
  | cons v vs ih =>
    obtain ⟨h1, h2⟩ := ih (j + 1) (setBlkByte b j v s)
    refine ⟨?_, fun a => ?_⟩
    · rw [setBlkFrom, h1]
      rfl
    · rw [setBlkFrom, h2, readBlk_setBlkByte]
      rcases Nat.lt_trichotomy a (256 * b + j) with h | h | h
      · rw [if_neg (by omega), if_neg (by omega), if_neg (by omega)]
      · subst h
        rw [if_neg (by omega), if_pos rfl, if_pos (by simp)]
        simp
      · by_cases hl : a < 256 * b + j + (v :: vs).length
        · simp only [List.length_cons] at hl
          rw [if_pos (by omega), if_pos (by simp only [List.length_cons]; omega)]
          obtain ⟨d, rfl⟩ : ∃ d, a = 256 * b + j + 1 + d := ⟨a - (256 * b + j + 1), by omega⟩
          rw [show 256 * b + j + 1 + d - (256 * b + (j + 1)) = d by omega,
            show 256 * b + j + 1 + d - (256 * b + j) = d + 1 by omega]
          simp
        · simp only [List.length_cons] at hl
          rw [if_neg (by omega), if_neg (by omega), if_neg (by simp only [List.length_cons]; omega)]

/-- A row write of the syndromes: nothing but `SYN` changes, and in it the listed bytes alone
(45_reed_solomon.md R129). -/
theorem setSynFrom_spec (b : Nat) (vs : List Byte) (i : Nat) (s : State) :
    setSynFrom b i vs s = { s with syn := (setSynFrom b i vs s).syn } ∧
    ∀ a, readSyn (setSynFrom b i vs s) a =
      if 32 * b + i ≤ a ∧ a < 32 * b + i + vs.length then vs.getD (a - (32 * b + i)) 0 else readSyn s a := by
  induction vs generalizing i s with
  | nil =>
    refine ⟨rfl, fun a => ?_⟩
    simp [setSynFrom]
  | cons v vs ih =>
    obtain ⟨h1, h2⟩ := ih (i + 1) (setSynByte b i v s)
    refine ⟨?_, fun a => ?_⟩
    · rw [setSynFrom, h1]
      rfl
    · rw [setSynFrom, h2, readSyn_setSynByte]
      rcases Nat.lt_trichotomy a (32 * b + i) with h | h | h
      · rw [if_neg (by omega), if_neg (by omega), if_neg (by omega)]
      · subst h
        rw [if_neg (by omega), if_pos rfl, if_pos (by simp)]
        simp
      · by_cases hl : a < 32 * b + i + (v :: vs).length
        · simp only [List.length_cons] at hl
          rw [if_pos (by omega), if_pos (by simp only [List.length_cons]; omega)]
          obtain ⟨d, rfl⟩ : ∃ d, a = 32 * b + i + 1 + d := ⟨a - (32 * b + i + 1), by omega⟩
          rw [show 32 * b + i + 1 + d - (32 * b + (i + 1)) = d by omega,
            show 32 * b + i + 1 + d - (32 * b + i) = d + 1 by omega]
          simp
        · simp only [List.length_cons] at hl
          rw [if_neg (by omega), if_neg (by omega), if_neg (by simp only [List.length_cons]; omega)]

/-! ## The ends of a body and the checks -/

/-- A body that goes on after `andThen` did so in both parts. -/
theorem Flow.andThen_eq_goesOn {f : Flow} {g : State → Flow} {t : State} :
    f.andThen g = .goesOn t ↔ ∃ s, f = .goesOn s ∧ g s = .goesOn t := by
  cases f <;> simp [Flow.andThen]

/-- A body that is ended after `andThen` was ended in one of the parts. -/
theorem Flow.andThen_eq_ended {f : Flow} {g : State → Flow} {t : State} :
    f.andThen g = .ended t ↔ f = .ended t ∨ ∃ s, f = .goesOn s ∧ g s = .ended t := by
  cases f <;> simp [Flow.andThen]

theorem validVersion_iff (s : State) : validVersion s = true ↔ 1 ≤ s.version.toNat ∧ s.version.toNat ≤ 40 := by
  simp [validVersion]

theorem checkVersion_of_valid {s : State} (h : validVersion s = true) (body : State → Flow) :
    checkVersion s body = body s := by simp [checkVersion, h]

theorem checkVersion_of_not_valid {s : State} (h : validVersion s = false) (body : State → Flow) :
    checkVersion s body = .ended (recordFailure .badParameter 1 s) := by simp [checkVersion, h, raiseFailure]

theorem checkBlock_of_lt {s : State} {b : Nat} (h : b < blockCount (capOf s)) (body : State → Flow) :
    checkBlock b s body = body s := by simp [checkBlock, h]

theorem checkBlock_of_not_lt {s : State} {b : Nat} (h : ¬b < blockCount (capOf s)) (body : State → Flow) :
    checkBlock b s body = .ended (recordFailure .badParameter 2 s) := by simp [checkBlock, h, raiseFailure]

/-! ## Bounds from well-formed parameters -/

theorem levelIndex_lt (lv : Level) : levelIndex lv < 4 := by cases lv <;> decide

/-- Every record of a block's `CAP` is well-formed (15_rom_tables.md R49). -/
theorem capRecord_wf (π : Params) {v : Nat} (h1 : 1 ≤ v) (h2 : v ≤ 40) (lv : Level) :
    CapRecord.wf (capRecord π.raw v lv) = true := by
  have h := π.ok
  simp only [RawParams.wf, Bool.and_eq_true, decide_eq_true_eq, List.all_eq_true] at h
  have hl := levelIndex_lt lv
  have hi : 4 * (v - 1) + levelIndex lv < π.raw.cap.length := by omega
  rw [capRecord, List.getD_eq_getElem?_getD, List.getElem?_eq_getElem hi, Option.getD_some]
  exact h.1.2 _ (List.getElem_mem hi)

theorem capOf_wf {s : State} (h : validVersion s = true) : CapRecord.wf (capOf s) = true :=
  have h := (validVersion_iff s).1 h
  capRecord_wf s.params h.1 h.2 _

/-- The bounds of a well-formed record, in the terms of the commands (15_rom_tables.md R49, 20_memory.md R70). -/
theorem capRecord_bounds {c : CapRecord} (h : CapRecord.wf c = true) :
    1 ≤ blockCount c ∧ blockCount c ≤ 128 ∧ totalCodewords c ≤ 4096 ∧
    ∀ b < blockCount c, 1 ≤ blockData c b ∧ blockData c b ≤ blockTotal c b ∧ blockTotal c b ≤ 255 ∧
      2 * blockCapacity c b ≤ 32 := by
  simp only [CapRecord.wf, Bool.and_eq_true, decide_eq_true_eq] at h
  obtain ⟨⟨⟨⟨⟨⟨⟨h1, h2⟩, h3⟩, h4⟩, h5⟩, h6⟩, h7⟩, h8⟩ := h
  refine ⟨by simp only [blockCount]; omega, by simpa [blockCount] using h2, h8, fun b hb => ?_⟩
  simp only [blockCount] at hb
  simp only [blockCapacity, blockData, blockTotal]
  by_cases hc : b < c.c1
  · simp only [if_pos hc]
    omega
  · have hc2 : c.c2 ≠ 0 := by omega
    simp only [if_neg hc2, Bool.and_eq_true, decide_eq_true_eq] at h7
    simp only [if_neg hc]
    omega

end Sys2Proof.Machine
end

