-- ==== Sys2Proof/Laws/Commands.lean ====
section
/-!
SUPPORT. One lemma per operation that several commands share above the memories: the format search, the correction of
one block, the dispatch of a word and the step.
-/

namespace Sys2Proof.Machine

/-- The format search answers the first entry less than four bits away (41_format_decode.md R98). -/
theorem fmtMatch_eq_some {π : RawParams} {raw : BitVec 15} {k : Nat} :
    fmtMatch π raw = some k ↔
      k < 32 ∧ popcount (raw ^^^ fmtEntry π k) < 4 ∧ ∀ j < k, ¬popcount (raw ^^^ fmtEntry π j) < 4 := by
  simp only [fmtMatch, List.find?_range_eq_some, List.mem_range, decide_eq_true_eq, Bool.not_eq_true',
    decide_eq_false_iff_not]
  tauto

/-- It answers nothing when no entry is that near (41_format_decode.md R98). -/
theorem fmtMatch_eq_none {π : RawParams} {raw : BitVec 15} :
    fmtMatch π raw = none ↔ ∀ j < 32, ¬popcount (raw ^^^ fmtEntry π j) < 4 := by
  simp [fmtMatch, List.find?_eq_none]

/-- Entering the values keeps the length of the word (45_reed_solomon.md R137). -/
theorem correctValues_length {π : RawParams} {W C' : List Byte} :
    ∀ {E : List Nat} {r c : List Byte}, correctValues π W C' E r = some c → c.length = r.length
  | [], r, c, h => by
    simp only [correctValues, Option.some.injEq] at h
    rw [h]
  | v :: E, r, c, h => by
    simp only [correctValues] at h
    split at h
    · cases h
    · split at h
      · cases h
      · simpa using correctValues_length h

/-- What the procedure answers is a member of the code, of the length of the word (45_reed_solomon.md R137, step 4). -/
theorem nearestMember_mem {π : RawParams} {r c : List Byte} {t : Nat} (h : nearestMember π r t = some c) :
    isMember π c t = true ∧ c.length = r.length := by
  simp only [nearestMember] at h
  split at h
  · cases h
  · split at h
    · cases h
    · split at h
      · cases h
      · rename_i hc
        split at h
        · rename_i hm
          cases h
          exact ⟨hm, correctValues_length hc⟩
        · cases h

/-- The three ends of the correction of a block (45_reed_solomon.md R134): it is a member already, it is moved to a
member, or it is uncorrectable. The syndromes of the word as received are stored in each. -/
theorem correctBlock_cases (b : Nat) (s : State) :
    let t := blockCapacity (capOf s) b
    let r := blkRow s b (blockTotal (capOf s) b)
    let u := setSynFrom b 0 (syndromes s.params.raw r t) s
    (isMember s.params.raw r t = true ∧ correctBlock b s = .goesOn (setBstat b bstatClean u)) ∨
    (isMember s.params.raw r t = false ∧ ∃ c, nearestMember s.params.raw r t = some c ∧
      correctBlock b s = .goesOn (setBstat b (bstatFixed (dist r c)) (setBlkFrom b 0 c u))) ∨
    (isMember s.params.raw r t = false ∧ nearestMember s.params.raw r t = none ∧
      correctBlock b s = .ended (recordFailure .blockUncorrectable b (setBstat b bstatFailed u))) := by
  have hp := congrArg State.params
    (setSynFrom_spec b (syndromes s.params.raw (blkRow s b (blockTotal (capOf s) b)) (blockCapacity (capOf s) b)) 0 s).1
  simp only [correctBlock, hp, raiseFailure]
  split
  · exact .inl ⟨by assumption, rfl⟩
  · rename_i hm
    refine .inr ?_
    split
    · rename_i c hc
      exact .inl ⟨Bool.not_eq_true _ ▸ hm, c, hc, rfl⟩
    · exact .inr ⟨Bool.not_eq_true _ ▸ hm, by assumption, rfl⟩

/-- A dropped command: the sticky gate (46_sequencing.md R141). -/
theorem command_of_gate {w : Word} {s : State} (he : s.err ≠ 0) (hw : w ≠ 0x0000000F) : command w s = .next s :=
  if_pos ⟨he, hw⟩

/-- A dispatched command (46_sequencing.md R141). -/
theorem command_of_open {w : Word} {s : State} (h : s.err = 0 ∨ w = 0x0000000F) :
    command w s = match decode w with
      | .ok i => exec i s
      | .error _ => .next (recordFailure .illegalCommand (w.extractLsb' 0 16).toNat s) := by
  exact if_neg fun hc => h.elim hc.1 hc.2

theorem step_of_pending_nil {s : State} (h : s.pending = []) : step s = .next s := by simp [step, h]

theorem step_of_pending_cons {s : State} {e : HostEvent} {rest : List HostEvent} (h : s.pending = e :: rest) :
    step s = serve e { s with pending := rest } := by simp [step, h]

end Sys2Proof.Machine
end

