-- ==== Sys2Proof/Laws/PerInstr.lean ====
section
/-!
SUPPORT. Facts about every command as syntax, one lemma per constructor: its word carries the fixed bits of its row of
the opcode map (30_encoding.md R73).
-/

namespace Sys2Proof.Laws

/-- The bits a row of the opcode map fixes: all of them in format C0, all but `BLKSEL` in format C1
(30_encoding.md R71, R73). -/
def rowMask : Instr → Word
  | .nop => 0xFFFFFFFF
  | .fmtdec => 0xFFFFFFFF
  | .unmask => 0xFFFFFFFF
  | .extract => 0xFFFFFFFF
  | .deint => 0xFFFFFFFF
  | .synd _ => 0xFFFF00FF
  | .rscor _ => 0xFFFF00FF
  | .rsall => 0xFFFFFFFF
  | .run => 0xFFFFFFFF
  | .srst => 0xFFFFFFFF

/-- The value of the fixed bits of a row (30_encoding.md R73). -/
def rowMatch : Instr → Word
  | .nop => 0x00000000
  | .fmtdec => 0x00000001
  | .unmask => 0x00000002
  | .extract => 0x00000003
  | .deint => 0x00000004
  | .synd _ => 0x00000005
  | .rscor _ => 0x00000006
  | .rsall => 0x00000007
  | .run => 0x00000008
  | .srst => 0x0000000F

/-- The word of a command carries the fixed bits of its row. -/
def EncodeRow.Statement (i : Instr) : Prop := i.wf = true → encode i &&& rowMask i = rowMatch i

theorem synd_row : ∀ b : BitVec 8, (0#16 ++ b ++ 0x05#8) &&& 0xFFFF00FF#32 = 0x00000005#32 := by decide +kernel

theorem rscor_row : ∀ b : BitVec 8, (0#16 ++ b ++ 0x06#8) &&& 0xFFFF00FF#32 = 0x00000006#32 := by decide +kernel

theorem EncodeRow.nop : EncodeRow.Statement .nop := fun _ => by decide

theorem EncodeRow.fmtdec : EncodeRow.Statement .fmtdec := fun _ => by decide

theorem EncodeRow.unmask : EncodeRow.Statement .unmask := fun _ => by decide

theorem EncodeRow.extract : EncodeRow.Statement .extract := fun _ => by decide

theorem EncodeRow.deint : EncodeRow.Statement .deint := fun _ => by decide

theorem EncodeRow.synd (blk : Nat) : EncodeRow.Statement (.synd blk) := fun _ => synd_row (BitVec.ofNat 8 blk)

theorem EncodeRow.rscor (blk : Nat) : EncodeRow.Statement (.rscor blk) := fun _ => rscor_row (BitVec.ofNat 8 blk)

theorem EncodeRow.rsall : EncodeRow.Statement .rsall := fun _ => by decide

theorem EncodeRow.run : EncodeRow.Statement .run := fun _ => by decide

theorem EncodeRow.srst : EncodeRow.Statement .srst := fun _ => by decide

end Sys2Proof.Laws
end

