-- ==== Sys2Proof/Laws/Tables.lean ====
section
/-!
SUPPORT. The spec's generating rules of the default tables (15_rom_tables.md R47, R50) and that the contents of
Machine/Tables.lean, copied from the spec's printed tables, obey them.
-/

namespace Sys2Proof.Laws

/-- `bch_rem(k)` (15_rom_tables.md R47). -/
def bchRem (k : Nat) : BitVec 10 :=
  ([14, 13, 12, 11, 10].foldl
    (fun v i => if v.getLsbD i then v ^^^ (0x537#15 <<< (i - 10)) else v) (BitVec.ofNat 15 k <<< 10)).setWidth 10

/-- The printed `FMTTAB` is the generated one (15_rom_tables.md R47). -/
theorem default_fmttab_generated :
    defaultFmttab = (List.range 32).map fun k =>
      ((BitVec.ofNat 15 k <<< 10) ||| (bchRem k).setWidth 15) ^^^ 0x5412 := by decide +kernel

/-- `raw(v)`, the number of data cells of a version-v symbol (15_rom_tables.md R50). -/
def rawCells (v : Nat) : Int :=
  let a : Int := (v / 7 : Nat) + 2
  (16 * v + 128) * v + 64 - (if v = 1 then 0 else (25 * a - 10) * a - 55) - (if 7 ≤ v then 36 else 0)

/-- The error-correction codewords per block, versions 1 to 40 (15_rom_tables.md R50). -/
def eccPerBlock : Level → List Nat
  | .l => [7, 10, 15, 20, 26, 18, 20, 24, 30, 18, 20, 24, 26, 30, 22, 24, 28, 30, 28, 28,
    28, 28, 30, 30, 26, 28, 30, 30, 30, 30, 30, 30, 30, 30, 30, 30, 30, 30, 30, 30]
  | .m => [10, 16, 26, 18, 24, 16, 18, 22, 22, 26, 30, 22, 22, 24, 24, 28, 28, 26, 26, 26,
    26, 28, 28, 28, 28, 28, 28, 28, 28, 28, 28, 28, 28, 28, 28, 28, 28, 28, 28, 28]
  | .q => [13, 22, 18, 26, 18, 24, 18, 22, 20, 24, 28, 26, 24, 20, 30, 24, 28, 28, 26, 30,
    28, 30, 30, 30, 30, 28, 30, 30, 30, 30, 30, 30, 30, 30, 30, 30, 30, 30, 30, 30]
  | .h => [17, 28, 22, 16, 22, 28, 26, 26, 24, 28, 24, 28, 22, 24, 24, 30, 28, 28, 26, 28,
    30, 24, 30, 30, 30, 30, 30, 30, 30, 30, 30, 30, 30, 30, 30, 30, 30, 30, 30, 30]

/-- The number of blocks, versions 1 to 40 (15_rom_tables.md R50). -/
def numBlocks : Level → List Nat
  | .l => [1, 1, 1, 1, 1, 2, 2, 2, 2, 4, 4, 4, 4, 4, 6, 6, 6, 6, 7, 8,
    8, 9, 9, 10, 12, 12, 12, 13, 14, 15, 16, 17, 18, 19, 19, 20, 21, 22, 24, 25]
  | .m => [1, 1, 1, 2, 2, 4, 4, 4, 5, 5, 5, 8, 9, 9, 10, 10, 11, 13, 14, 16,
    17, 17, 18, 20, 21, 23, 25, 26, 28, 29, 31, 33, 35, 37, 38, 40, 43, 45, 47, 49]
  | .q => [1, 1, 2, 2, 4, 4, 6, 6, 8, 8, 8, 10, 12, 16, 12, 17, 16, 18, 21, 20,
    23, 23, 25, 27, 29, 34, 34, 35, 38, 40, 43, 45, 48, 51, 53, 56, 59, 62, 65, 68]
  | .h => [1, 1, 2, 4, 4, 4, 5, 6, 8, 8, 11, 11, 16, 16, 18, 16, 19, 21, 25, 25,
    25, 34, 30, 32, 35, 37, 40, 42, 45, 48, 51, 54, 57, 60, 63, 66, 70, 74, 77, 81]

/-- The record of a version and level by the generating rule (15_rom_tables.md R50). -/
def generatedRecord (v : Nat) (lv : Level) : CapRecord :=
  let total := (rawCells v / 8).toNat
  let e := (eccPerBlock lv).getD (v - 1) 0
  let nb := (numBlocks lv).getD (v - 1) 0
  let c2 := total % nb
  let n1 := total / nb
  { c1 := nb - c2, n1 := n1, k1 := n1 - e, c2 := c2
    n2 := if 0 < c2 then n1 + 1 else 0
    k2 := if 0 < c2 then n1 + 1 - e else 0 }

/-- The printed `CAP` is the generated one, in the order L, M, Q, H within a version (15_rom_tables.md R50; log 9). -/
theorem default_cap_generated :
    defaultCap = (List.range 40).flatMap fun i =>
      [Level.l, .m, .q, .h].map (generatedRecord (i + 1)) := by decide +kernel

end Sys2Proof.Laws
end

