-- ==== Sys2Proof/Tests/Slice0.lean ====
section
/-!
SUPPORT. Tests, each a named theorem on fixed values: the form of commands, decoding, one step or one command of the
spec's test vectors (95_test_vectors.md, cited as V and P), and for every obligation with hypotheses a witness that
meets them.
-/

namespace Sys2Proof.Tests

open Sys2Proof.Machine Sys2Proof.Claims Sys2Proof.Safety

set_option maxRecDepth 100000
set_option Elab.async false

/-! ## Form and decoding (30_encoding.md R71 to R74) -/

theorem test_block_operand_256_is_refused_in_synd : (Instr.synd 256).wf = false := by decide

theorem test_block_operand_256_is_refused_in_rscor : (Instr.rscor 256).wf = false := by decide

/-- `OP` in the low byte, zeros above (30_encoding.md R73). -/
theorem test_decode_format_c0 :
    decode 0b00000000000000000000000000000000 = .ok .nop ∧
    decode 0b00000000000000000000000000000001 = .ok .fmtdec ∧
    decode 0b00000000000000000000000000000010 = .ok .unmask ∧
    decode 0b00000000000000000000000000000011 = .ok .extract ∧
    decode 0b00000000000000000000000000000100 = .ok .deint ∧
    decode 0b00000000000000000000000000000111 = .ok .rsall ∧
    decode 0b00000000000000000000000000001000 = .ok .run ∧
    decode 0b00000000000000000000000000001111 = .ok .srst := by decide

/-- `blk` in [15:8] (30_encoding.md R72, R73). -/
theorem test_decode_format_c1 :
    decode 0b00000000000000000000000000000101 = .ok (.synd 0) ∧
    decode 0b00000000000000001000000000000101 = .ok (.synd 128) ∧
    decode 0b00000000000000000101000100000110 = .ok (.rscor 81) ∧
    decode 0b00000000000000001111111100000110 = .ok (.rscor 255) := by decide

/-- V7.1 to V7.3 and the other list of 30_encoding.md R74. -/
theorem test_illegal_words_are_rejected_by_name :
    decode 0x00000101 = .error .operandOnC0 ∧ decode 0x00010005 = .error .highHalfNotZero ∧
    decode 0x80000000 = .error .highHalfNotZero ∧ decode 0x00000009 = .error .unassignedOpcode ∧
    decode 0x00000010 = .error .unassignedOpcode ∧ decode 0x0000000E = .error .unassignedOpcode := by decide

theorem test_table_word_keeps_its_bits :
    decodeTableWord 32 0xFF05 = some (.synd 255) ∧ decodeTableWord 32 0x109 = none := by decide

/-! ## Helpers -/

/-- The outcome is a next state with that property. -/
def answers (o : Host.Outcome State Fault Refusal) (p : State → Bool) : Bool :=
  match o with
  | .next t => p t
  | .fault _ => false
  | .refused _ => false

/-- The first elements of a memory. -/
def listed (n : Nat) (f : Nat → Byte) : Memory := (List.range n).map fun i => (i, f i)

/-- The bytes at the start of a memory. -/
def bytes (vs : List Byte) : Memory := listed vs.length fun i => vs.getD i 0

/-- The block after reset with the host's acts pending. -/
def hostDoes (es : List HostEvent) : State := { State.reset with pending := es }

/-- The block after reset with that version. -/
def atVersion (v : BitVec 6) : State := { State.reset with version := v }

/-- `CODE26` (95_test_vectors.md section 2). -/
def code26 : List Byte :=
  [0x40, 0xD2, 0x75, 0x47, 0x76, 0x17, 0x32, 0x06, 0x27, 0x26, 0x96, 0xC6, 0xC6, 0x96, 0x70, 0xEC,
   0xA6, 0x3B, 0xB3, 0xE1, 0xCB, 0xFA, 0x96, 0xF6, 0xFA, 0x0C]

/-- Version 1, level M, block 0 as given. -/
def blockOf (r : List Byte) : State := { atVersion 1 with blk := bytes r }

/-- `CODE26` with the five errors of V6.3. -/
def fiveErrors : List Byte :=
  [0xBF, 0xD2, 0x75, 0x47, 0x76, 0x17, 0x32, 0x07, 0x27, 0x26, 0x96, 0xC6, 0xF5, 0x96, 0x70, 0x6C,
   0xA6, 0x3B, 0xB3, 0xE1, 0xCB, 0xFA, 0x96, 0xF6, 0xFA, 0x56]

/-- `CODE26` with the six errors of V6.4. -/
def sixErrors : List Byte :=
  [0xBF, 0xD2, 0x75, 0x47, 0x76, 0x17, 0x32, 0x07, 0x27, 0x26, 0x96, 0xC6, 0xF5, 0x96, 0x70, 0x6C,
   0xA6, 0x3B, 0xB3, 0xE1, 0xCF, 0xFA, 0x96, 0xF6, 0xFA, 0x56]

/-- The default parameters with another record for version 1, level M, 3 codewords in one block of capacity 1. -/
def smallCap : Params where
  raw := { defaultRawParams with cap := defaultCap.set 1 ⟨1, 3, 1, 0, 0, 0⟩ }
  ok := by decide +kernel

/-- The same with two such blocks. -/
def pairCap : Params where
  raw := { defaultRawParams with cap := defaultCap.set 1 ⟨2, 3, 1, 0, 0, 0⟩ }
  ok := by decide +kernel

/-- The custom record of 44_deinterleave.md R126. -/
def dealCap : Params where
  raw := { defaultRawParams with cap := defaultCap.set 1 ⟨2, 3, 1, 1, 5, 3⟩ }
  ok := by decide +kernel

/-! ## Field and bit primitives (V1) -/

theorem test_field_products :
    gfMul defaultRawParams 0x02 0x80 = 0x1D ∧ gfMul defaultRawParams 0x53 0xCA = 0x8F ∧
    gfMul defaultRawParams 0xFF 0xFF = 0xE2 ∧ gfMul defaultRawParams 0x80 0x80 = 0x13 ∧
    gfMul defaultRawParams 0x03 0x07 = 0x09 := by decide +kernel

theorem test_powers_and_inverses :
    [0, 1, 7, 8, 9, 25, 254, 255].map (apow defaultRawParams) = [0x01, 0x02, 0x80, 0x1D, 0x3A, 0x03, 0x8E, 0x01] ∧
    [0x01, 0x02, 0x03, 0x53, 0xFF].map (gfInv defaultRawParams) = [0x01, 0x8E, 0xF4, 0x8C, 0xFD] := by
  decide +kernel

theorem test_popcount_and_dist :
    popcount 0x5412 = 5 ∧ popcount 0x7FFF = 15 ∧ popcount (0x40CE ^^^ 0x0046) = 3 ∧
    dist [0x12, 0x34, 0xCD, 0xD5, 0xB3, 0x8D] [0x12, 0x3B, 0xCD, 0xD5, 0x13, 0x8D] = 2 := by decide +kernel

/-! ## Commands -/

/-- 46_sequencing.md R142. -/
theorem test_nop_through_the_port : answers (step (hostDoes [.write 0x00001 0])) (· == State.reset) = true := by
  decide +kernel

/-- V2.3. -/
theorem test_fmtdec_three_flipped_bits :
    answers (exec .fmtdec { State.reset with fmtRaw0 := 0x0046 })
      (fun t => t.fmtWord == 0x14DC && t.level == 0 && t.mask == 5 && statusWord t == 0x00000110) = true := by
  decide +kernel

/-- V2.12. -/
theorem test_fmtdec_falls_back_to_the_secondary :
    answers (exec .fmtdec { State.reset with fmtRaw0 := 0x40C1, fmtRaw1 := 0x3F30 })
      (fun t => t.fmtWord == 0x6B23 && t.level == 3 && t.mask == 2 && statusWord t == 0x00000310) = true := by
  decide +kernel

/-- V3.2 at cells of the top row: (9,0) goes from 1 to 0, (12,0) from 0 to 1, (13,0) is a function cell; the loop body
of 42_mask.md R105 on a grid with these cells. -/
theorem test_unmask_cell :
    let s := { atVersion 1 with mask := 5, grid := [(9, 1), (12, 0), (13, 2)] }
    (gridCell (unmaskCell s (9, 0)) 9 0, gridCell (unmaskCell s (12, 0)) 12 0, gridCell (unmaskCell s (13, 0)) 13 0) =
      (.dataLight, .dataDark, .function) := by decide +kernel

/-- Rows of the flag tables of 42_mask.md R110 that tell column from row: patterns 1, 2 and 4. -/
theorem test_mask_flags_tell_column_from_row :
    [(1, 0), (0, 1)].map (fun xy => maskflag 1 xy.1 xy.2) = [true, false] ∧
    [(1, 0), (0, 1)].map (fun xy => maskflag 2 xy.1 xy.2) = [false, true] ∧
    [(3, 0), (0, 2)].map (fun xy => maskflag 4 xy.1 xy.2) = [false, false] ∧
    [(2, 0), (0, 1)].map (fun xy => maskflag 4 xy.1 xy.2) = [true, true] := by decide +kernel

/-- The data cells of the layout of 43_extract.md R119. -/
def layoutCell (x y : Nat) : Bool :=
  decide (x ≠ 6) && decide (y ≠ 6) && !(decide (y ≤ 8) && (decide (x ≤ 8) || decide (13 ≤ x))) &&
  !(decide (13 ≤ y) && decide (x ≤ 8))

/-- `GRID21U` (95_test_vectors.md section 2), a row as its 21 bits, function cells 0. -/
def grid21u : List Nat :=
  [0b000000000000100000000, 0b000000000111000000000, 0b000000000010100000000, 0b000000000110100000000,
   0b000000000010000000000, 0b000000000111100000000, 0b000000000000000000000, 0b000000000000100000000,
   0b000000000111100000000, 0b000111001110000111010, 0b000111010010001100010, 0b111110010001110011011,
   0b001101001101001001110, 0b000000000110101011001, 0b000000000001010101100, 0b000000000011010001010,
   0b000000000110101000111, 0b000000000110111010000, 0b000000000111000001000, 0b000000000010010111000,
   0b000000000011101001110]

/-- A grid of version 1 with given data cells and dark cells, listed up to the end of row 20. -/
def gridOf (data dark : Nat → Nat → Bool) : Memory :=
  (List.range 21).flatMap fun y =>
    (List.range 21).map fun x => (256 * y + x, if data x y then (if dark x y then 1 else 0) else 2)

/-- V4.1. -/
theorem test_extract_reads_code26 :
    answers (exec .extract
        { atVersion 1 with grid := gridOf layoutCell fun x y => (grid21u.getD y 0).testBit (20 - x) })
      (fun t => (List.range 26).map (readCw t) == code26 && t.cw.length == 26 && t.cwCnt == 26 &&
        statusWord t == 0x00000030) = true := by decide +kernel

/-- 43_extract.md R119, V4.5. -/
theorem test_walk_order :
    (zigzag 21).take 4 = [(20, 20), (19, 20), (20, 19), (19, 19)] ∧ (zigzag 21).length = 420 ∧
    rightColumns 21 20 = [20, 18, 16, 14, 12, 10, 8, 5, 3, 1] := by decide +kernel

/-- V5.3. -/
theorem test_deint_two_groups :
    answers (exec .deint { atVersion 1 with params := dealCap, cw := listed 11 (BitVec.ofNat 8) })
      (fun t => blkRow t 0 3 == [0, 3, 6] && blkRow t 1 3 == [1, 4, 7] && blkRow t 2 5 == [2, 5, 8, 9, 10] &&
        t.blk.length == 11 && statusWord t == 0x00000040) = true := by decide +kernel

/-- V5.2, the ends of the longer blocks. -/
theorem test_deint_version_5_q :
    answers (exec .deint { atVersion 5 with level := 3, cw := listed 134 (BitVec.ofNat 8) })
      (fun t => blkByte t 0 32 == 0x80 && blkByte t 2 33 == 0x84 && blkByte t 3 33 == 0x85) = true := by decide +kernel

/-- V6.3 seen by SYND. -/
theorem test_synd_five_errors :
    answers (exec (.synd 0) (blockOf fiveErrors))
      (fun t => (List.range 10).map (synByte t 0) ==
          [0x17, 0xE5, 0x2D, 0x3E, 0x40, 0x2F, 0x8D, 0x62, 0x7D, 0x7D] &&
        bstatOf t 0 == 0x02 && statusWord t == 0x00000050 && t.blk == bytes fiveErrors) = true := by decide +kernel

/-- V6.3. -/
theorem test_rscor_five_errors :
    answers (exec (.rscor 0) (blockOf fiveErrors))
      (fun t => blkRow t 0 26 == code26 && bstatOf t 0 == 0x2B && statusWord t == 0x00000050) = true := by
  decide +kernel

/-- V6.4. -/
theorem test_rscor_six_errors :
    answers (exec (.rscor 0) (blockOf sixErrors))
      (fun t => blkRow t 0 26 == sixErrors && bstatOf t 0 == 0x06 && statusWord t == 0x00000055) = true := by
  decide +kernel

/-- Two blocks of the code of 45_reed_solomon.md R131 with n = 3, t = 1: the zero word with one error, and a word whose
S_0 is 0 and S_1 is not, which no single error explains; RSALL corrects the first and stops at the second
(45_reed_solomon.md R139). -/
theorem test_rsall_stops_at_the_second_block :
    answers (exec .rsall { atVersion 1 with params := pairCap, blk := [(0, 0), (1, 7), (2, 0), (256, 1), (257, 1), (258, 0)] })
      (fun t => blkRow t 0 3 == [0, 0, 0] && blkRow t 1 3 == [1, 1, 0] && bstatOf t 0 == 0x0B && bstatOf t 1 == 0x06 &&
        t.errInfo == 1 && statusWord t == 0x00000055) = true := by decide +kernel

/-- V7.4. -/
theorem test_run_refuses_version_0 :
    answers (step (hostDoes [.write 0x00001 8])) (fun t => statusWord t == 0x00000009 && t.errInfo == 1) = true := by
  decide +kernel

/-- V2.8 as the first stage of RUN: it ends the command (46_sequencing.md R143). -/
theorem test_run_ends_at_the_first_failure :
    answers (exec .run (atVersion 1)) (fun t => statusWord t == 0x00000013 && t.errInfo == 0) = true := by
  decide +kernel

/-- V7.7: SRST passes the gate and clears the failure. -/
theorem test_srst_passes_the_gate :
    answers (step { hostDoes [.write 0x00001 0xF] with err := 3, version := 1 })
      (fun t => statusWord t == 0 && t.version == 0 && t.grid == []) = true := by decide +kernel

/-! ## The host port (V8) -/

/-- V8: identification, masking of a register write, code 3 of a cell, reads of the tables. -/
theorem test_host_port :
    readAt State.reset 0 = 0x51524431 ∧ readAt State.reset 0xA0005 = 0x40CE ∧ readAt State.reset 0x80008 = 0x1D ∧
    (List.range 6).map (fun f => readAt State.reset (0xB00B8 + f)) = [2, 33, 15, 2, 34, 16] ∧
    answers (step (hostDoes [.write 0x00004 0xFFFFFFFF])) (fun t => readAt t 4 == 0x3F) = true ∧
    answers (step (hostDoes [.write 0x11405 3])) (fun t => readAt t 0x11405 == 2) = true := by decide +kernel

/-- V1.13. -/
theorem test_log_table :
    [0x90000, 0x90001, 0x90002, 0x9001D].map (readAt State.reset) = [0x00, 0xFF, 0x01, 0x08] := by decide +kernel

/-! ## Witnesses: concrete values that meet the hypotheses of each obligation -/

theorem witness_DecodeOfEncodeIsTheCommand :
    (Instr.synd 0).wf = true ∧ (Instr.rscor 255).wf = true ∧ Instr.run.wf = true := by decide

theorem witness_EveryLegalWordIsAnEncoding : decode 0x0000FF05 = .ok (.synd 255) := by decide

/-- Illegal words at the ends of each list of 30_encoding.md R74, and words beside them that are none. -/
theorem witness_IllegalWordsAreTheListedOnes :
    (∀ w ∈ [0x09, 0x0E, 0x10, 0xFF, 0x10000, 0xFFFFFFFF, 0x100, 0xFF0F], ListedIllegalWord (BitVec.ofNat 32 w)) ∧
    ∀ w ∈ [0x08, 0x0F, 0xFF05, 0x0106], ¬ListedIllegalWord (BitVec.ofNat 32 w) := by
  unfold ListedIllegalWord
  decide +kernel

theorem witness_ResetReadsAsTheResetTable :
    readAt State.reset 16 = 0 ∧ readAt State.reset 0xFFFF = 0 ∧ readAt State.reset 0x5007F = 0 ∧
    readAt State.reset 0x60FFF = 0 := by decide +kernel

theorem witness_ResetFromOutsideLeavesTheResetState :
    (hostDoes [.reset, .read 0]).pending = .reset :: [.read 0] := rfl

/-- Both cases of the gate: nothing recorded, and SRST under a failure. -/
theorem witness_StepRunsTheDecodedCommand :
    (let s := hostDoes [.write 0x00001 0x0105]
     s.pending = .write 0x00001 0x0105 :: [] ∧ decode 0x0105 = .ok (.synd 1) ∧ s.err = 0) ∧
    (let s := { hostDoes [.write 0x00001 0x0000000F] with err := 5 }
     s.pending = .write 0x00001 0x0000000F :: [] ∧ decode 0x0000000F = .ok .srst) ∧
    (Instr.synd 255).wf = true ∧ State.reset.err = 0 := by decide +kernel

theorem witness_NopChangesNothing :
    { hostDoes [.write 0x00001 0x00000000] with err := 3 }.pending = .write 0x00001 0x00000000 :: [] := rfl

theorem witness_FailureGateDropsEveryOtherCommand :
    let s := { hostDoes [.write 0x00001 0x00000009] with err := 3 }
    s.pending = .write 0x00001 0x00000009 :: [] ∧ s.err ≠ 0 ∧ (0x00000009 : Word) ≠ 0x0000000F := by decide +kernel

theorem witness_IllegalWordRecordsIllegalCommand :
    let s := hostDoes [.write 0x00001 0x00010005]
    s.pending = .write 0x00001 0x00010005 :: [] ∧ s.err = 0 ∧ ListedIllegalWord 0x00010005 := by
  unfold ListedIllegalWord
  decide +kernel

theorem witness_BlockWaitsForTheHost : State.reset.pending = [] := rfl

theorem witness_IllegalVersionIsABadParameter :
    ¬LegalVersion (atVersion 0) ∧ ¬LegalVersion (atVersion 41) ∧ ¬LegalVersion (atVersion 63) := by
  unfold LegalVersion
  decide

/-- Version 1 has one block at level M, version 40 has 81 at level H, the field 1. -/
theorem witness_MissingBlockIsABadParameter :
    (LegalVersion (atVersion 1) ∧ blockCount (capOf (atVersion 1)) ≤ 1) ∧
    (let s := { atVersion 40 with level := 1 }
     LegalVersion s ∧ blockCount (capOf s) ≤ 81) := by
  unfold LegalVersion
  decide +kernel

theorem witness_FailureStaysUntilSrstOrReset :
    let s := { hostDoes [.write 0x00004 1] with err := 3 }
    s.err ≠ 0 ∧ step s = .next { s with pending := [], version := 1 } ∧
    (∀ rest, s.pending ≠ .reset :: rest) ∧ ∀ rest, s.pending ≠ .write 0x00001 0x0000000F :: rest := by
  refine ⟨by decide, rfl, ?_, ?_⟩ <;> simp [hostDoes]

/-- A read in the queue; and reads at the last element of `GRID`, `CW`, `BLK`, `SYN` and `BSTAT`. -/
theorem witness_HostReadChangesNothing :
    (hostDoes [.read 0x00002]).pending = .read 0x00002 :: [] ∧
    (let s := { State.reset with
        grid := [(65535, 2)], cw := [(4095, 7)], blk := [(32767, 8)], syn := [(4095, 9)], errInfo := 0x101, cwCnt := 26 }
     [3, 14, 0x1FFFF, 0x20FFF, 0x37FFF, 0x40FFF, 0x5007F].map (readAt s) = [0x101, 26, 2, 7, 8, 9, 0]) := by
  decide +kernel

/-- The first and the last legal version and their neighbours. -/
theorem witness_ViewRegistersFollowTheVersion :
    LegalVersion (atVersion 1) ∧ LegalVersion (atVersion 40) ∧ ¬LegalVersion (atVersion 0) ∧
    ¬LegalVersion (atVersion 41) := by
  unfold LegalVersion
  decide

/-- The last data byte of a block, the first of the next, and the places after the data. -/
theorem witness_OutShowsTheDataCodewordsInBlockOrder :
    (let s := { atVersion 5 with level := 3 }
     LegalVersion s ∧ 1 < blockCount (capOf s) ∧ 14 < blockData (capOf s) 1 ∧ 2 < blockCount (capOf s) ∧
     15 < blockData (capOf s) 2 ∧ totalData (capOf s) ≤ 62 ∧ totalData (capOf s) ≤ 4095) ∧
    ¬LegalVersion (atVersion 0) := by
  unfold LegalVersion
  decide +kernel

theorem witness_ParameterRegistersStoreTheirLowBits :
    ∀ a ∈ [0x00004#20, 0x00005#20, 0x00006#20, 0x00007#20, 0x00008#20],
      (hostDoes [.write a 0xFFFFFFFF]).pending = .write a 0xFFFFFFFF :: [] := fun _ _ => rfl

theorem witness_GridWriteStoresOneCell :
    255 < 256 ∧ (hostDoes [.write 0x1FFFF 3]).pending = .write (BitVec.ofNat 20 (0x10000 + 256 * 255 + 255)) 3 :: [] := by
  decide

/-- The first and the last byte of each memory. -/
theorem witness_ByteWriteStoresOneByte :
    (∀ p ∈ [0, 4095], p < 4096 ∧ (hostDoes [.write (BitVec.ofNat 20 (0x20000 + p)) 0x1FF]).pending =
      .write (BitVec.ofNat 20 (0x20000 + p)) 0x1FF :: []) ∧
    ∀ b ∈ [0, 127], ∀ j ∈ [0, 255], b < 128 ∧ j < 256 ∧
      (hostDoes [.write (BitVec.ofNat 20 (0x30000 + 256 * b + j)) 0x1FF]).pending =
        .write (BitVec.ofNat 20 (0x30000 + 256 * b + j)) 0x1FF :: [] := by decide

theorem witness_OtherHostWritesAreDropped :
    ∀ a ∈ [0x00000, 0x00002, 0x00003, 0x00009, 0x0FFFF, 0x21000, 0x2FFFF, 0x38000, 0x40000, 0xFFFFF],
      (hostDoes [.write (BitVec.ofNat 20 a) 1]).pending = .write (BitVec.ofNat 20 a) 1 :: [] ∧
      StoresNothing (BitVec.ofNat 20 a).toNat := by
  unfold StoresNothing
  decide +kernel

theorem witness_UnnamedAddressesReadZeroAndDropWrites :
    ∀ a ∈ [0x00010, 0x0FFFF, 0x21000, 0x2FFFF, 0x38000, 0x3FFFF, 0x41000, 0x4FFFF, 0x50080, 0x5FFFF, 0x61000, 0x7FFFF,
        0x80100, 0x8FFFF, 0x90100, 0x9FFFF, 0xA0020, 0xB001F, 0xB0520, 0xBFFFF, 0xB0026, 0xC0000, 0xFFFFF],
      NamesNoLocation (BitVec.ofNat 20 a).toNat ∧
      (hostDoes [.write (BitVec.ofNat 20 a) 1]).pending = .write (BitVec.ofNat 20 a) 1 :: [] := by
  unfold NamesNoLocation
  decide +kernel

theorem witness_FieldTablesReadAsPowersAndExponents :
    (1 ≤ 1 ∧ 1 ≤ 255) ∧ readAt State.reset 0x80001 = (apow defaultRawParams 1).setWidth 32 ∧
    readAt State.reset 0x800FF = (apow defaultRawParams 255).setWidth 32 ∧
    apow defaultRawParams 175 = BitVec.ofNat 8 255 ∧ readAt State.reset 0x900FF = 175 := by decide +kernel

theorem witness_ParameterTablesReadAsTheirEntries :
    readAt State.reset 0xA001F = 0x2BED ∧
    (List.range 6).map (fun f => readAt State.reset (0xB0000 + 32 * 40 + 8 * 3 + f)) = [34, 54, 24, 34, 55, 25] := by
  decide +kernel

theorem witness_InverseIsTheOneByteWithProductOne : (0x53 : Byte) ≠ 0 := by decide

theorem witness_TableLookUpMultiplies : ((0 : Byte) = 0 ∨ (0x55 : Byte) = 0) ∧ (0xFF : Byte) ≠ 0 := by decide

/-- The member of V6.7 and the zero word; and two members of the longest length. -/
theorem witness_CodeMembersLieFarApart :
    (let c : List Byte := [0x12, 0x34, 0xCD, 0xD5, 0xB3, 0x8D]
     let d : List Byte := List.replicate 6 0
     c.length = d.length ∧ c.length ≤ 255 ∧ InCode defaultParams.raw 2 c ∧ InCode defaultParams.raw 2 d ∧ c ≠ d ∧
     dist [0x12, 0x3B, 0xCD, 0xD5, 0x13, 0x8D] c ≤ 2) ∧
    (let c : List Byte := [0x02, 0x03, 0x01] ++ List.replicate 252 0
     let d : List Byte := List.replicate 255 0
     c.length = d.length ∧ c.length ≤ 255 ∧ InCode defaultParams.raw 1 c ∧ InCode defaultParams.raw 1 d ∧ c ≠ d) := by
  unfold InCode
  decide +kernel

theorem witness_DefaultFormatEntriesLieFarApart :
    (0 < 32 ∧ 31 < 32 ∧ 0 ≠ 31) ∧ Near defaultRawParams 0x0046 5 := by
  unfold Near
  decide +kernel

/-- V2.3 for the primary word, V2.12 for the secondary, V2.5 for neither. -/
theorem witness_FmtdecTakesTheFirstNearEntry :
    FirstNear defaultRawParams 0x0046 5 ∧
    ((∀ j < 32, ¬Near defaultRawParams 0x40C1 j) ∧ FirstNear defaultRawParams 0x3F30 26) ∧
    ∀ j < 32, ¬Near defaultRawParams 0 j := by
  unfold FirstNear Near
  decide +kernel

theorem witness_FmtdecRestoresUpToThreeFlippedBits :
    let s := { State.reset with fmtRaw0 := 0x2BED ^^^ 0x4081 }
    s.params.raw.fmttab = defaultFmttab ∧ 31 < 32 ∧ popcount (s.fmtRaw0 ^^^ defaultFmttab.getD 31 0) ≤ 3 := by
  decide +kernel

theorem witness_UnmaskFlipsTheMaskedDataCells :
    ¬LegalVersion (atVersion 0) ∧ LegalVersion (atVersion 1) ∧ LegalVersion (atVersion 40) := by
  unfold LegalVersion
  decide

theorem witness_UnmaskTwiceRestoresTheGrid : LegalVersion (atVersion 40) := by
  unfold LegalVersion
  decide

/-- The first and the last place of the walk at both ends of the sizes. -/
theorem witness_WalkGoesZigzagFromTheBottomRight :
    (0 < 8 + 2 * 1 ∧ 0 < 17 + 4 * 1 ∧ 0 < 2) ∧ (9 < 8 + 2 * 1 ∧ 20 < 17 + 4 * 1 ∧ 1 < 2) ∧
    87 < 8 + 2 * 40 ∧ 176 < 17 + 4 * 40 := by decide

theorem witness_WalkVisitsEachCellOutsideColumnSixOnce : 1 ≤ 1 ∧ 1 ≤ 40 ∧ 40 ≤ 40 := by decide

/-- Reading a memory that lists its first elements. -/
theorem read_listed {free f : Nat → Byte} {n a : Nat} (h : a < n) : Memory.read free (listed n f) a = f a := by
  have hr : ∀ (l : List Nat), a ∈ l → Memory.read free (l.map fun i => (i, f i)) a = f a := by
    intro l
    induction l with
    | nil => intro h; cases h
    | cons b l ih =>
      intro h
      rw [List.map_cons, Memory.read]
      split
      · subst_vars; rfl
      · exact ih ((List.mem_cons.1 h).resolve_left ‹_›)
  exact hr _ (List.mem_range.2 h)

/-- A version 1 grid with these data cells and dark cells, listed up to the end of row 20. -/
def gridListed (data dark : Nat → Nat → Bool) : Memory :=
  listed 5376 fun a =>
    if data (a % 256) (a / 256) then (if dark (a % 256) (a / 256) then 1 else 0) else 2

/-- Its cells. -/
def plannedCell (data dark : Nat → Nat → Bool) (x y : Nat) : Cell :=
  if data x y then (if dark x y then .dataDark else .dataLight) else .function

theorem gridCell_gridListed {s : State} {data dark : Nat → Nat → Bool} (h : s.grid = gridListed data dark)
    {x y : Nat} (hx : x < 21) (hy : y < 21) : gridCell s x y = plannedCell data dark x y := by
  simp only [gridCell, readGrid, h, gridListed, plannedCell]
  rw [read_listed (by omega), show (256 * y + x) % 256 = x by omega, show (256 * y + x) / 256 = y by omega]
  split <;> (try split) <;> rfl

theorem dataCells_gridListed {s : State} {data dark : Nat → Nat → Bool} (h : s.grid = gridListed data dark) :
    dataCells s 21 =
      ((List.range 21).map fun y =>
        ((List.range 21).filter fun x => decide (x ≠ 6) && decide (plannedCell data dark x y ≠ .function)).length).sum := by
  refine congrArg List.sum (List.map_congr_left fun y hy => congrArg List.length (List.filter_congr fun x hx => ?_))
  rw [gridCell_gridListed h (List.mem_range.1 hx) (List.mem_range.1 hy)]

theorem zigzag_inside : ∀ xy ∈ zigzag 21, xy.1 < 21 ∧ xy.2 < 21 := by decide +kernel

theorem dataBits_gridListed {s : State} {data dark : Nat → Nat → Bool} (h : s.grid = gridListed data dark)
    (flips : Nat → Nat → Bool) :
    dataBits s 21 flips =
      (zigzag 21).filterMap fun xy =>
        if data xy.1 xy.2 then some (dark xy.1 xy.2 != flips xy.1 xy.2) else none := by
  refine List.filterMap_congr fun xy hz => ?_
  rw [gridCell_gridListed h (zigzag_inside xy hz).1 (zigzag_inside xy hz).2, plannedCell]
  cases data xy.1 xy.2 <;> cases dark xy.1 xy.2 <;> cases flips xy.1 xy.2 <;> rfl

/-- The layout of version 1: 208 data cells. -/
def layoutSymbol : State := { atVersion 1 with grid := gridListed layoutCell fun _ _ => true }

/-- 31 data cells in the first pair of columns of the walk. -/
def tinyData (x y : Nat) : Bool := decide (19 ≤ x) && decide (5 ≤ y) && decide (256 * y + x ≠ 1299)

/-- The cells of mask 0 dark, but for the first of the walk. -/
def tinyDark (x y : Nat) : Bool := decide ((x + y) % 2 = 0) && decide (256 * y + x ≠ 5140)

/-- A symbol of 3 codewords and 7 bits left over under mask 0, carrying the zero word with one bit flipped. -/
def tinySymbol : State :=
  { atVersion 1 with
    params := smallCap
    fmtRaw0 := 0x5412
    grid := gridListed tinyData tinyDark }

/-- A grid without data cells. -/
def noDataCells : State := { atVersion 1 with grid := gridListed (fun _ _ => false) fun _ _ => false }

/-- A grid without function cells. -/
def onlyDataCells : State := { atVersion 1 with grid := gridListed (fun _ _ => true) fun _ _ => false }

theorem symbol_data_cells :
    dataCells layoutSymbol 21 = 208 ∧ dataCells tinySymbol 21 = 31 ∧ dataCells noDataCells 21 = 0 ∧
    dataCells onlyDataCells 21 = 420 := by
  rw [
    dataCells_gridListed (show layoutSymbol.grid = gridListed layoutCell fun _ _ => true from rfl),
    dataCells_gridListed (show tinySymbol.grid = gridListed tinyData tinyDark from rfl),
    dataCells_gridListed (show noDataCells.grid = gridListed (fun _ _ => false) fun _ _ => false from rfl),
    dataCells_gridListed (show onlyDataCells.grid = gridListed (fun _ _ => true) fun _ _ => false from rfl)]
  decide +kernel

/-- The layout of version 1 (26 codewords, no bit left over), and 31 data cells under a record of 3 codewords. -/
theorem witness_ExtractPacksTheWalkIntoCodewords :
    (LegalVersion layoutSymbol ∧
      8 * totalCodewords (capOf layoutSymbol) ≤ dataCells layoutSymbol (17 + 4 * layoutSymbol.version.toNat) ∧
      dataCells layoutSymbol (17 + 4 * layoutSymbol.version.toNat) ≤ 8 * totalCodewords (capOf layoutSymbol) + 7) ∧
    (LegalVersion tinySymbol ∧
      8 * totalCodewords (capOf tinySymbol) ≤ dataCells tinySymbol (17 + 4 * tinySymbol.version.toNat) ∧
      dataCells tinySymbol (17 + 4 * tinySymbol.version.toNat) ≤ 8 * totalCodewords (capOf tinySymbol) + 7) := by
  rw [show 17 + 4 * layoutSymbol.version.toNat = 21 from rfl, show 17 + 4 * tinySymbol.version.toNat = 21 from rfl,
    symbol_data_cells.1, symbol_data_cells.2.1]
  unfold LegalVersion
  decide +kernel

/-- No data cell, and no function cell. -/
theorem witness_ExtractRecordsAWrongCount :
    (LegalVersion noDataCells ∧ 0 = dataCells noDataCells (17 + 4 * noDataCells.version.toNat) / 8 ∧
      0 ≠ totalCodewords (capOf noDataCells)) ∧
    (LegalVersion onlyDataCells ∧ 52 = dataCells onlyDataCells (17 + 4 * onlyDataCells.version.toNat) / 8 ∧
      52 ≠ totalCodewords (capOf onlyDataCells)) := by
  rw [show 17 + 4 * noDataCells.version.toNat = 21 from rfl, show 17 + 4 * onlyDataCells.version.toNat = 21 from rfl,
    symbol_data_cells.2.2.1, symbol_data_cells.2.2.2]
  unfold LegalVersion
  decide +kernel

/-- The last byte of version 5 level Q goes to the last byte of block 3 (V5.2). -/
theorem witness_DeintDealsTheStreamRoundRobin :
    ¬LegalVersion (atVersion 41) ∧
    (let s := { atVersion 5 with level := 3 }
     LegalVersion s ∧ (dealOrder (capOf s))[0]? = some (0, 0) ∧ (dealOrder (capOf s))[133]? = some (3, 33) ∧
     3 < blockCount (capOf s) ∧ 33 < blockTotal (capOf s) 3) := by
  unfold LegalVersion
  decide +kernel

/-- The last byte of the even part and both left over bytes of version 5 level Q. -/
theorem witness_DeintClosedForm :
    let s := { atVersion 5 with level := 3 }
    LegalVersion s ∧ 0 < (capOf s).c2 ∧ (capOf s).n2 = (capOf s).n1 + 1 ∧
    131 < blockCount (capOf s) * min (capOf s).n1 (capOf s).n2 ∧ blockCount (capOf s) * (capOf s).n1 ≤ 132 ∧
    133 < totalCodewords (capOf s) := by
  unfold LegalVersion
  decide +kernel

/-- A member and V6.3. -/
theorem witness_SyndWritesSyndromesAndStatus :
    (let s := blockOf code26
     LegalVersion s ∧ 0 < blockCount (capOf s) ∧ InCode s.params.raw (capacityOf s 0) (received s 0)) ∧
    (let s := blockOf fiveErrors
     LegalVersion s ∧ 0 < blockCount (capOf s) ∧ ¬InCode s.params.raw (capacityOf s 0) (received s 0)) := by
  unfold LegalVersion InCode
  decide +kernel

theorem witness_RscorLeavesAMemberUnchanged :
    let s := blockOf code26
    LegalVersion s ∧ 0 < blockCount (capOf s) ∧ InCode s.params.raw (capacityOf s 0) (received s 0) := by
  unfold LegalVersion InCode
  decide +kernel

/-- V6.3, as many errors as the capacity. -/
theorem witness_RscorRestoresTheMemberWithinReach :
    let s := blockOf fiveErrors
    LegalVersion s ∧ 0 < blockCount (capOf s) ∧ ¬InCode s.params.raw (capacityOf s 0) (received s 0) ∧
    WithinReach s 0 code26 := by
  unfold LegalVersion WithinReach InCode
  decide +kernel

theorem agree_in_two {r₀ r₁ r₂ a b c : Byte} (h : dist [r₀, r₁, r₂] [a, b, c] ≤ 1) :
    (r₀ = a ∧ r₁ = b) ∨ (r₀ = a ∧ r₂ = c) ∨ (r₁ = b ∧ r₂ = c) := by
  simp only [dist, List.zip_cons_cons, List.zip_nil_right, List.countP_cons, List.countP_nil, decide_eq_true_eq] at h
  by_cases ha : r₀ = a <;> by_cases hb : r₁ = b <;> by_cases hc : r₂ = c <;> simp [ha, hb, hc] at h ⊢

theorem no_third_byte : ∀ x : Byte,
    ¬InCode pairCap.raw 1 [1, 1, x] ∧ ¬InCode pairCap.raw 1 [1, x, 0] ∧ ¬InCode pairCap.raw 1 [x, 1, 0] := by
  unfold InCode
  decide +kernel

/-- The word `01 01 00` lies two bytes from every member of `Code(3, 1)`. -/
theorem no_member_near_110 {d : List Byte} (hl : d.length = 3) (hd : InCode pairCap.raw 1 d) :
    ¬dist [1, 1, 0] d ≤ 1 := by
  intro h
  obtain ⟨a, b, c, rfl⟩ := List.length_eq_three.1 hl
  obtain ⟨rfl, rfl⟩ | ⟨rfl, rfl⟩ | ⟨rfl, rfl⟩ := agree_in_two h
  · exact (no_third_byte _).1 hd
  · exact (no_third_byte _).2.1 hd
  · exact (no_third_byte _).2.2 hd

/-- Two blocks of `Code(3, 1)`: the first is the zero word with one wrong byte, the second is out of reach. -/
def pairState : State :=
  { atVersion 1 with params := pairCap, blk := [(0, 0), (1, 7), (2, 0), (256, 1), (257, 1), (258, 0)] }

theorem second_block_out_of_reach (d : List Byte) : ¬WithinReach pairState 1 d := by
  have h : blockTotal (capOf pairState) 1 = 3 ∧ capacityOf pairState 1 = 1 ∧ received pairState 1 = [1, 1, 0] := by
    decide +kernel
  intro ⟨h1, h2, h3⟩
  rw [h.1] at h1
  rw [h.2.1] at h2
  rw [h.2.1, h.2.2] at h3
  exact no_member_near_110 h1 h2 h3

theorem witness_RscorRefusesABlockOutOfReach :
    LegalVersion pairState ∧ 1 < blockCount (capOf pairState) ∧ ∀ c, ¬WithinReach pairState 1 c :=
  ⟨by unfold LegalVersion; decide, by decide +kernel, second_block_out_of_reach⟩

theorem witness_RscorEndsInAMemberOrARefusal :
    LegalVersion (blockOf sixErrors) ∧ 0 < blockCount (capOf (blockOf sixErrors)) := by
  unfold LegalVersion
  decide +kernel

theorem witness_RsallEndsInMembersOrARefusal : LegalVersion (atVersion 1) ∧ LegalVersion (atVersion 40) := by
  unfold LegalVersion
  decide

/-- Two blocks, the first with one wrong byte, the second a member. -/
theorem witness_RsallRestoresEveryBlock :
    let s := { atVersion 1 with params := pairCap, blk := [(0, 0), (1, 7), (2, 0), (256, 0), (257, 0), (258, 0)] }
    LegalVersion s ∧ ∀ b < blockCount (capOf s), WithinReach s b [0, 0, 0] := by
  unfold LegalVersion WithinReach InCode
  decide +kernel

theorem witness_RsallStopsAtTheFirstBlockOutOfReach :
    LegalVersion pairState ∧ 1 < blockCount (capOf pairState) ∧ (∀ b < 1, WithinReach pairState b [0, 0, 0]) ∧
    ∀ d, ¬WithinReach pairState 1 d :=
  ⟨by unfold LegalVersion; decide, by decide +kernel, by unfold WithinReach InCode; decide +kernel,
    second_block_out_of_reach⟩

theorem witness_RunIsTheFiveStagesInOrder :
    ¬LegalVersion (atVersion 0) ∧ LegalVersion (atVersion 1) ∧ (atVersion 1).err = 0 := by
  unfold LegalVersion
  decide

theorem tinySymbol_bits (s : State) (h : s.grid = gridListed tinyData tinyDark) :
    dataBits s 21 (maskRule 0) = true :: List.replicate 30 false := by
  rw [dataBits_gridListed h]
  decide +kernel

/-- The same symbol with the raw format word in the secondary copy, no entry near the primary (V2.8). -/
def throughSecondary (s : State) : State := { s with fmtRaw0 := 0, fmtRaw1 := s.fmtRaw0 }

/-- Both for the symbol read through the primary format word and for it read through the secondary. -/
theorem witness_RunDecodesAMaskedSymbol :
    ∀ sc ∈ [(tinySymbol, 0#1), (throughSecondary tinySymbol, 1#1)],
      let s := sc.1
      let w := formatWord s.params.raw 0
      let c := capRecord s.params.raw s.version.toNat (levelOf (w.extractLsb' 13 2))
      let bits := true :: List.replicate 30 false
      LegalVersion s ∧ s.err = 0 ∧ FormatFrom s sc.2 0 ∧
      bits = dataBits s (17 + 4 * s.version.toNat) (maskRule (w.extractLsb' 10 3).toNat) ∧
      8 * totalCodewords c ≤ bits.length ∧ bits.length ≤ 8 * totalCodewords c + 7 ∧
      ∀ b < blockCount c,
        [0, 0, 0].length = blockTotal c b ∧ InCode s.params.raw (blockCapacity c b) [0, 0, 0] ∧
        dist (dealt c bits b) [0, 0, 0] ≤ blockCapacity c b := by
  intro sc h
  rw [List.mem_cons, List.mem_singleton] at h
  obtain rfl | rfl := h
  · refine ⟨by unfold LegalVersion; decide, rfl, by unfold FormatFrom FirstNear Near; decide +kernel, ?_,
      by decide +kernel, by decide +kernel, by unfold InCode; decide +kernel⟩
    rw [show (formatWord tinySymbol.params.raw 0).extractLsb' 10 3 = 0 by decide +kernel]
    exact (tinySymbol_bits tinySymbol rfl).symm
  · refine ⟨by unfold LegalVersion; decide, rfl, by unfold FormatFrom FirstNear Near; decide +kernel, ?_,
      by decide +kernel, by decide +kernel, by unfold InCode; decide +kernel⟩
    rw [show (formatWord (throughSecondary tinySymbol).params.raw 0).extractLsb' 10 3 = 0 by decide +kernel]
    exact (tinySymbol_bits (throughSecondary tinySymbol) rfl).symm

/-- The same symbol with every codeword zero. -/
def cleanSymbol : State :=
  { tinySymbol with grid := gridListed tinyData fun x y => decide ((x + y) % 2 = 0) }

theorem cleanSymbol_bits (s : State) (h : s.grid = gridListed tinyData (fun x y => decide ((x + y) % 2 = 0))) :
    dataBits s 21 (maskRule 0) = List.replicate 31 false := by
  rw [dataBits_gridListed h]
  decide +kernel

theorem witness_RunDecodesASymbolWithoutNoise :
    ∀ sc ∈ [(cleanSymbol, 0#1), (throughSecondary cleanSymbol, 1#1)],
      let s := sc.1
      let w := formatWord s.params.raw 0
      let c := capRecord s.params.raw s.version.toNat (levelOf (w.extractLsb' 13 2))
      let bits := List.replicate 31 false
      LegalVersion s ∧ s.err = 0 ∧ FormatFrom s sc.2 0 ∧
      bits = dataBits s (17 + 4 * s.version.toNat) (maskRule (w.extractLsb' 10 3).toNat) ∧
      8 * totalCodewords c ≤ bits.length ∧ bits.length ≤ 8 * totalCodewords c + 7 ∧
      ∀ b < blockCount c, InCode s.params.raw (blockCapacity c b) (dealt c bits b) := by
  intro sc h
  rw [List.mem_cons, List.mem_singleton] at h
  obtain rfl | rfl := h
  · refine ⟨by unfold LegalVersion; decide, rfl, by unfold FormatFrom FirstNear Near; decide +kernel, ?_,
      by decide +kernel, by decide +kernel, by unfold InCode; decide +kernel⟩
    rw [show (formatWord cleanSymbol.params.raw 0).extractLsb' 10 3 = 0 by decide +kernel]
    exact (cleanSymbol_bits cleanSymbol rfl).symm
  · refine ⟨by unfold LegalVersion; decide, rfl, by unfold FormatFrom FirstNear Near; decide +kernel, ?_,
      by decide +kernel, by decide +kernel, by unfold InCode; decide +kernel⟩
    rw [show (formatWord (throughSecondary cleanSymbol).params.raw 0).extractLsb' 10 3 = 0 by decide +kernel]
    exact (cleanSymbol_bits (throughSecondary cleanSymbol) rfl).symm

theorem witness_EveryStepKeepsTheInvariant :
    let s := { hostDoes [.write 0x00001 0] with err := 5, stage := 5, bstat := Vector.replicate 128 0x83 }
    Safety.Inv s ∧ step s = .next { s with pending := [] } := by
  refine ⟨?_, rfl⟩
  unfold Safety.Inv inMemory
  decide +kernel

theorem witness_NoStepChangesTheTables :
    step (hostDoes [.write 0xA0000 1]) = .next State.reset := rfl

theorem witness_OnlyTheNamedCommandsWrite :
    exec .srst (atVersion 1) = .next (resetBlock (atVersion 1)) ∧ (resetBlock (atVersion 1)).version ≠ 1 := by
  exact ⟨rfl, by decide⟩

end Sys2Proof.Tests
end

section
/-!
SUPPORT AND PROOFS. What the host reads at a register and at an element of `OUT`, the places of the data codewords in
`OUT`, and the statements about the views of the state (10_state.md R27, R39).
-/

namespace Sys2Proof.Proofs

open Sys2Proof.Machine Sys2Proof.Claims

/-! ## The address of a read -/

/-- An address below 2^20 splits into the space and the element select (20_memory.md R53). -/
theorem readAt_eq_readElement (s : State) {a : Nat} (h : a < 1048576) :
    readAt s a = readElement s (a / 65536) (a % 65536) := by
  rw [readAt, hostRead, addrSpace, addrLow, BitVec.toNat_ofNat, Nat.mod_eq_of_lt h]

theorem readAt_register (s : State) {n : Nat} (h : n < 65536) : readAt s n = readReg s n := by
  rw [readAt_eq_readElement s (by omega), Nat.div_eq_of_lt h, Nat.mod_eq_of_lt h]
  rfl

theorem readAt_out (s : State) {k : Nat} (h : k < 4096) : readAt s (0x60000 + k) = (outByte s k).setWidth 32 := by
  rw [readAt_eq_readElement s (by omega), show (0x60000 + k) / 65536 = 6 by omega,
    show (0x60000 + k) % 65536 = k by omega]
  exact if_pos h

/-! ## The version check of the views -/

theorem validVersion_of_legal {s : State} (h : LegalVersion s) : validVersion s = true := (validVersion_iff s).2 h

theorem validVersion_of_not_legal {s : State} (h : ¬LegalVersion s) : validVersion s = false :=
  Bool.eq_false_iff.2 fun hv => h ((validVersion_iff s).1 hv)

theorem viewWord_of_legal {s : State} (h : LegalVersion s) (v : Nat) : viewWord s v = BitVec.ofNat 32 v :=
  if_pos (validVersion_of_legal h)

theorem viewWord_of_not_legal {s : State} (h : ¬LegalVersion s) (v : Nat) : viewWord s v = 0 := by
  simp [viewWord, validVersion_of_not_legal h]

theorem outByte_of_not_legal {s : State} (h : ¬LegalVersion s) (k : Nat) : outByte s k = 0 := by
  simp [outByte, validVersion_of_not_legal h]

theorem outByte_of_totalData_le {s : State} {k : Nat} (h : totalData (capOf s) ≤ k) : outByte s k = 0 :=
  if_neg fun hk => absurd hk.2 (Nat.not_lt.2 h)

theorem outByte_of_lt_totalData {s : State} (hv : LegalVersion s) {k : Nat} (h : k < totalData (capOf s)) :
    outByte s k = blkByte s (outPlace (capOf s) k).1 (outPlace (capOf s) k).2 :=
  if_pos ⟨validVersion_of_legal hv, h⟩

/-! ## The data codewords before a block -/

/-- The number of data codewords of the blocks before block `b`: where block `b` begins in `OUT`. -/
def dataBefore (c : CapRecord) (b : Nat) : Nat := ((List.range b).map fun b' => blockData c b').sum

theorem dataBefore_succ (c : CapRecord) (b : Nat) : dataBefore c (b + 1) = dataBefore c b + blockData c b := by
  simp [dataBefore, List.range_succ]

theorem dataBefore_mono (c : CapRecord) : Monotone (dataBefore c) :=
  monotone_nat_of_le_succ fun b => dataBefore_succ c b ▸ Nat.le_add_right _ _

/-- Up to the end of group 1 every block before has `k1` data codewords. -/
theorem dataBefore_group1 (c : CapRecord) {b : Nat} (h : b ≤ c.c1) : dataBefore c b = b * c.k1 := by
  induction b with
  | zero => simp [dataBefore]
  | succ b ih => rw [dataBefore_succ, ih (by omega), blockData, if_pos (by omega), Nat.succ_mul]

/-- In group 2 all of group 1 stands before, and `k2` data codewords for each block of group 2 before. -/
theorem dataBefore_group2 (c : CapRecord) (d : Nat) : dataBefore c (c.c1 + d) = c.c1 * c.k1 + d * c.k2 := by
  induction d with
  | zero => simp [dataBefore_group1]
  | succ d ih => rw [← Nat.add_assoc, dataBefore_succ, ih, blockData, if_neg (by omega), Nat.succ_mul, Nat.add_assoc]

theorem dataBefore_blockCount (c : CapRecord) : dataBefore c (blockCount c) = totalData c := dataBefore_group2 c c.c2

/-- A data codeword of a block lies before `NDATA`: its block's data ends where the next block's begins. -/
theorem dataBefore_add_lt_totalData {c : CapRecord} {b j : Nat} (hb : b < blockCount c) (hj : j < blockData c b) :
    dataBefore c b + j < totalData c :=
  calc dataBefore c b + j < dataBefore c b + blockData c b := Nat.add_lt_add_left hj _
    _ = dataBefore c (b + 1) := (dataBefore_succ c b).symm
    _ ≤ dataBefore c (blockCount c) := dataBefore_mono c hb
    _ = totalData c := dataBefore_blockCount c

/-- The data codewords of a well-formed record fit `OUT`, as its codewords fit `CW` (15_rom_tables.md R49). -/
theorem totalData_le {c : CapRecord} (h : CapRecord.wf c = true) : totalData c ≤ 4096 := by
  obtain ⟨-, -, hfit, hblocks⟩ := capRecord_bounds h
  have group1 : c.c1 * c.k1 ≤ c.c1 * c.n1 := by
    rcases Nat.eq_zero_or_pos c.c1 with h0 | hpos
    · simp [h0]
    · have hle := (hblocks 0 (by simp only [blockCount]; omega)).2.1
      rw [blockData, blockTotal, if_pos hpos, if_pos hpos] at hle
      exact Nat.mul_le_mul_left _ hle
  have group2 : c.c2 * c.k2 ≤ c.c2 * c.n2 := by
    rcases Nat.eq_zero_or_pos c.c2 with h0 | hpos
    · simp [h0]
    · have hle := (hblocks c.c1 (by simp only [blockCount]; omega)).2.1
      rw [blockData, blockTotal, if_neg (Nat.lt_irrefl _), if_neg (Nat.lt_irrefl _)] at hle
      exact Nat.mul_le_mul_left _ hle
  exact (Nat.add_le_add group1 group2).trans hfit

/-! ## The place that an element of `OUT` shows -/

/-- Quotient and remainder of a place counted in rows of `k`. -/
theorem divMod_of_row {k d j : Nat} (hj : j < k) : (d * k + j) / k = d ∧ (d * k + j) % k = j :=
  (Nat.div_mod_unique (Nat.zero_lt_of_lt hj)).2 ⟨by ring, hj⟩

/-- `OUT` at the beginning of block `b` plus `j` shows byte `j` of block `b`, in either group (10_state.md R39). -/
theorem outPlace_dataBefore_add {c : CapRecord} {b j : Nat} (hj : j < blockData c b) :
    outPlace c (dataBefore c b + j) = (b, j) := by
  by_cases hb : b < c.c1
  · rw [blockData, if_pos hb] at hj
    have hlt : b * c.k1 + j < c.c1 * c.k1 :=
      calc b * c.k1 + j < (b + 1) * c.k1 := by rw [Nat.succ_mul]; omega
        _ ≤ c.c1 * c.k1 := Nat.mul_le_mul_right _ hb
    obtain ⟨hdiv, hmod⟩ := divMod_of_row (d := b) hj
    rw [dataBefore_group1 c hb.le, outPlace, if_pos hlt, hdiv, hmod]
  · obtain ⟨d, rfl⟩ := Nat.exists_eq_add_of_le (Nat.not_lt.1 hb)
    rw [blockData, if_neg hb] at hj
    obtain ⟨hdiv, hmod⟩ := divMod_of_row (d := d) hj
    rw [dataBefore_group2, outPlace, if_neg (by omega),
      show c.c1 * c.k1 + d * c.k2 + j - c.c1 * c.k1 = d * c.k2 + j by omega, hdiv, hmod]

/-- Every data codeword of a block is read at its place in `OUT`. -/
theorem readAt_out_dataBefore_add {s : State} (hv : LegalVersion s) {b j : Nat} (hb : b < blockCount (capOf s))
    (hj : j < blockData (capOf s) b) :
    readAt s (0x60000 + dataBefore (capOf s) b + j) = (blkByte s b j).setWidth 32 := by
  have hlt := dataBefore_add_lt_totalData hb hj
  have hfit := totalData_le (capOf_wf (validVersion_of_legal hv))
  rw [Nat.add_assoc, readAt_out s (by omega), outByte_of_lt_totalData hv hlt, outPlace_dataBefore_add hj]

/-! ## The obligations -/

/-- Settles O19: each of the registers 10 to 13 is a view word, and the version decides what a view word is. -/
theorem viewRegistersFollowTheVersion : Obligations.ViewRegistersFollowTheVersion := by
  intro s
  rw [readAt_register s (n := 10) (by decide), readAt_register s (n := 11) (by decide),
    readAt_register s (n := 12) (by decide), readAt_register s (n := 13) (by decide)]
  constructor
  · intro h
    exact ⟨viewWord_of_legal h _, viewWord_of_legal h _, viewWord_of_legal h _, viewWord_of_legal h _⟩
  · intro h
    exact ⟨viewWord_of_not_legal h _, viewWord_of_not_legal h _, viewWord_of_not_legal h _, viewWord_of_not_legal h _⟩

/-- Settles O20, by the place of each data codeword in `OUT` and the two cases in which `OUT` shows nothing. -/
theorem outShowsTheDataCodewordsInBlockOrder : Obligations.OutShowsTheDataCodewordsInBlockOrder := by
  intro s
  refine ⟨fun hv => ⟨fun b j hb hj => readAt_out_dataBefore_add hv hb hj, fun k hk hle => ?_⟩, fun hv k hk => ?_⟩
  · rw [readAt_out s hk, outByte_of_totalData_le hle]
    rfl
  · rw [readAt_out s hk, outByte_of_not_legal hv]
    rfl

end Sys2Proof.Proofs
end

section
/-!
SUPPORT AND PROOFS. The triangle inequality of the bit distance, that at most one entry of a table with the default
`FMTTAB` is near a word, and the statement about the default table (15_rom_tables.md R48).
-/

namespace Sys2Proof.Proofs

open Sys2Proof.Machine Sys2Proof.Claims

/-! ## The number of differing bits as a distance -/

/-- A bit of `a ^^^ b` is one only where a bit of `a` or of `b` is. -/
theorem popcount_xor_le (a b : BitVec 15) : popcount (a ^^^ b) ≤ popcount a + popcount b := by
  simp only [popcount, BitVec.getLsbD_xor]
  induction List.range 15 with
  | nil => simp
  | cons i l ih =>
    simp only [List.countP_cons]
    cases a.getLsbD i <;> cases b.getLsbD i <;> simp <;> omega

theorem popcount_xor_triangle (a b c : BitVec 15) : popcount (b ^^^ c) ≤ popcount (a ^^^ b) + popcount (a ^^^ c) := by
  have through : b ^^^ c = (a ^^^ b) ^^^ (a ^^^ c) := by
    rw [BitVec.xor_comm a b, BitVec.xor_assoc, ← BitVec.xor_assoc a a c, BitVec.xor_self, BitVec.zero_xor]
  exact through ▸ popcount_xor_le (a ^^^ b) (a ^^^ c)

/-! ## The default format table -/

/-- The minimum distance of the code, over all the pairs of printed entries, as R48 computes it. -/
theorem seven_le_popcount_defaultFmttab :
    ∀ j < 32, ∀ k < 32, j ≠ k → 7 ≤ popcount (defaultFmttab.getD j 0 ^^^ defaultFmttab.getD k 0) := by
  decide +kernel

/-- The index of an entry is its five data bits, so its level field and its mask id (15_rom_tables.md R47, R48). -/
theorem formatWord_data_bits :
    ∀ k < 32, (formatWord defaultRawParams k).extractLsb' 10 5 = BitVec.ofNat 5 k := by
  decide +kernel

theorem five_le_popcount_zero_xor_defaultFmttab : ∀ k < 32, 5 ≤ popcount (0 ^^^ defaultFmttab.getD k 0) := by
  decide +kernel

/-! ## The entry near a word -/

/-- The format search answers the first near entry, whatever the table (41_format_decode.md R98). -/
theorem fmtMatch_eq_some_iff_firstNear {π : RawParams} {raw : BitVec 15} {k : Nat} :
    fmtMatch π raw = some k ↔ FirstNear π raw k := fmtMatch_eq_some

/-- Two entries each within 3 bits of one word are within 6 bits of each other, and no two distinct ones are. -/
theorem near_unique {π : RawParams} (hπ : π.fmttab = defaultFmttab) {raw : BitVec 15} {j k : Nat} (hj : j < 32)
    (hk : k < 32) (nearj : Near π raw j) (neark : Near π raw k) : j = k := by
  by_contra hne
  rw [Near, hπ] at nearj neark
  have apart := seven_le_popcount_defaultFmttab j hj k hk hne
  have close := popcount_xor_triangle raw (defaultFmttab.getD j 0) (defaultFmttab.getD k 0)
  omega

/-- The order of the search does not matter: a near entry is the first one. -/
theorem firstNear_of_near {π : RawParams} (hπ : π.fmttab = defaultFmttab) {raw : BitVec 15} {k : Nat} (hk : k < 32)
    (neark : Near π raw k) : FirstNear π raw k :=
  ⟨hk, neark, fun _ hjk nearj => hjk.ne (near_unique hπ (hjk.trans hk) hk nearj neark)⟩

/-! ## The obligation -/

/-- Settles O34: the pairs of entries are computed, entries 0 and 1 are the two at distance 7, and the near entry is
unique, so the first, by the triangle inequality. -/
theorem defaultFormatEntriesLieFarApart : Obligations.DefaultFormatEntriesLieFarApart := by
  refine ⟨seven_le_popcount_defaultFmttab, ?seven, ?unique, ?found, formatWord_data_bits,
    five_le_popcount_zero_xor_defaultFmttab⟩
  case seven => exact ⟨0, by decide, 1, by decide, by decide⟩
  case unique => exact fun _ _ hj _ hk => near_unique rfl hj hk
  case found => exact fun _ _ hk neark => fmtMatch_eq_some_iff_firstNear.2 (firstNear_of_near rfl hk neark)

end Sys2Proof.Proofs
end

section
/-!
SUPPORT AND PROOFS. What a host write outside `CMD` leaves, the two low bits of a word as a cell, the addresses that
name no location by space and element select, and the statements about `GRID` and about those addresses
(20_memory.md R55, R62).
-/

namespace Sys2Proof.Proofs

open Sys2Proof.Machine Sys2Proof.Claims

/-! ## A host write outside `CMD` -/

/-- The whole step of a host write that executes nothing: the element is written, the port answers nothing
(20_memory.md R61). -/
theorem step_of_write {s : State} {a : Addr} {v : Word} {rest : List HostEvent} (h : s.pending = .write a v :: rest)
    (ha : a ≠ 0x00001) :
    step s = .next (writeElement (addrSpace a) (addrLow a) v { s with pending := rest, reply := none }) := by
  rw [step_of_pending_cons h]
  exact if_neg ha

/-- Only the registers, `GRID`, `CW` and `BLK` store a write: every space after theirs drops it (20_memory.md R61). -/
theorem writeElement_of_four_le {space : Nat} (h : 4 ≤ space) (low : Nat) (v : Word) (s : State) :
    writeElement space low v s = s := by
  unfold writeElement
  split
  case h_5 => rfl
  all_goals omega

theorem writeReg_of_nine_le {n : Nat} (h : 9 ≤ n) (v : Word) (s : State) : writeReg n v s = s := by
  unfold writeReg
  split
  case h_6 => rfl
  all_goals omega

theorem readReg_of_fifteen_le {n : Nat} (h : 15 ≤ n) (s : State) : readReg s n = 0 := by
  unfold readReg
  split
  case h_16 => rfl
  all_goals omega

/-! ## The two low bits of a word as a cell -/

/-- Code 3 is stored as `function` (30_encoding.md R80). -/
theorem cellOfCode_lowBits (v : Word) :
    cellOfCode (v.extractLsb' 0 2) =
      if v.toNat % 4 = 0 then .dataLight else if v.toNat % 4 = 1 then .dataDark else .function := by
  have code : (v.extractLsb' 0 2).toNat = v.toNat % 4 := by simp
  unfold cellOfCode
  rw [code]
  split
  case h_1 h => rw [if_pos h]
  case h_2 h => rw [if_neg (by omega), if_pos h]
  case h_3 h0 h1 => rw [if_neg h0, if_neg h1]

theorem cellCode_lowBits (v : Word) :
    (cellCode (cellOfCode (v.extractLsb' 0 2))).setWidth 32 = BitVec.ofNat 32 (min (v.toNat % 4) 2) := by
  rw [cellOfCode_lowBits]
  split
  · next h => rw [h]; rfl
  · split
    · next h => rw [h]; rfl
    · rw [Nat.min_eq_right (by omega)]; rfl

/-! ## The addresses of `GRID` -/

/-- The space and the element select of a `GRID` address (20_memory.md R53, R55). -/
theorem addrSpace_addrLow_grid {x y : Nat} (hx : x < 256) (hy : y < 256) :
    addrSpace (BitVec.ofNat 20 (0x10000 + 256 * y + x)) = 1 ∧
      addrLow (BitVec.ofNat 20 (0x10000 + 256 * y + x)) % 256 = x ∧
      addrLow (BitVec.ofNat 20 (0x10000 + 256 * y + x)) / 256 = y := by
  rw [addrSpace, addrLow, BitVec.toNat_ofNat]
  omega

theorem readAt_grid (s : State) {x y : Nat} (hx : x < 256) (hy : y < 256) :
    readAt s (0x10000 + 256 * y + x) = (cellCode (gridCell s x y)).setWidth 32 := by
  obtain ⟨hspace, hcol, hrow⟩ := addrSpace_addrLow_grid hx hy
  rw [readAt, hostRead, hspace]
  simp only [readElement, hcol, hrow]

/-- A host write of a `GRID` cell is the cell write of the commands (20_memory.md R55). -/
theorem step_of_write_grid {s : State} {x y : Nat} {v : Word} {rest : List HostEvent} (hx : x < 256) (hy : y < 256)
    (h : s.pending = .write (BitVec.ofNat 20 (0x10000 + 256 * y + x)) v :: rest) :
    step s = .next (setGridCell x y (cellOfCode (v.extractLsb' 0 2)) { s with pending := rest, reply := none }) := by
  obtain ⟨hspace, hcol, hrow⟩ := addrSpace_addrLow_grid hx hy
  have notCmd : BitVec.ofNat 20 (0x10000 + 256 * y + x) ≠ 0x00001 := by
    intro heq
    rw [heq] at hspace
    exact absurd hspace (by decide)
  rw [step_of_write h notCmd, hspace]
  simp only [writeElement, hcol, hrow]

/-! ## The places that name no location -/

/-- A space and an element select that name no location: a select beyond the elements of its space, a `CAP` place with
version field 0, a version above 40 or field 6 or 7, or a space without elements (20_memory.md R53, R54, R59, R62). -/
inductive NamesNoElement (space low : Nat) : Prop where
  | register (hs : space = 0x0) (h : 16 ≤ low)
  | cw (hs : space = 0x2) (h : 4096 ≤ low)
  | blk (hs : space = 0x3) (h : 32768 ≤ low)
  | syn (hs : space = 0x4) (h : 4096 ≤ low)
  | bstat (hs : space = 0x5) (h : 128 ≤ low)
  | out (hs : space = 0x6) (h : 4096 ≤ low)
  | seven (hs : space = 0x7)
  | gfexp (hs : space = 0x8) (h : 256 ≤ low)
  | gflog (hs : space = 0x9) (h : 256 ≤ low)
  | fmttab (hs : space = 0xA) (h : 32 ≤ low)
  | cap (hs : space = 0xB) (h : low / 32 = 0 ∨ 41 ≤ low / 32 ∨ 5 < low % 8)
  | high (hs : 0xC ≤ space)

/-- The ranges of addresses, each taken to its space; two of them reach over the end of a space. -/
theorem namesNoElement_of_namesNoLocation {a : Addr} (h : NamesNoLocation a.toNat) :
    NamesNoElement (addrSpace a) (addrLow a) := by
  unfold addrSpace addrLow
  rcases h with h | h | h | h | h | h | h | h | h | h | h | h
  · exact .register (by omega) (by omega)
  · exact .cw (by omega) (by omega)
  · exact .blk (by omega) (by omega)
  · exact .syn (by omega) (by omega)
  · exact .bstat (by omega) (by omega)
  · by_cases out : a.toNat < 0x70000
    · exact .out (by omega) (by omega)
    · exact .seven (by omega)
  · exact .gfexp (by omega) (by omega)
  · exact .gflog (by omega) (by omega)
  · by_cases fmttab : a.toNat < 0xB0000
    · exact .fmttab (by omega) (by omega)
    · exact .cap (by omega) (.inl (by omega))
  · exact .cap (by omega) (.inr (.inl (by omega)))
  · exact .cap (by omega) (.inr (.inr (by omega)))
  · exact .high (by omega)

theorem capField_of_five_lt (c : CapRecord) {f : Nat} (h : 5 < f) : capField c f = 0 := by
  unfold capField
  split
  case h_7 => rfl
  all_goals omega

theorem readCap_eq_zero (π : RawParams) {low : Nat} (h : low / 32 = 0 ∨ 41 ≤ low / 32 ∨ 5 < low % 8) :
    readCap π low = 0 := by
  rw [readCap]
  split
  · rw [capField_of_five_lt _ (by omega)]
    rfl
  · rfl

theorem readElement_of_twelve_le {space : Nat} (h : 0xC ≤ space) (s : State) (low : Nat) :
    readElement s space low = 0 := by
  unfold readElement
  split
  case h_12 => rfl
  all_goals omega

theorem readElement_of_namesNoElement (s : State) {space low : Nat} (h : NamesNoElement space low) :
    readElement s space low = 0 := by
  cases h with
  | register hs h => exact hs ▸ readReg_of_fifteen_le (by omega) s
  | seven hs => exact hs ▸ rfl
  | cap hs h => rw [hs, readElement, readCap_eq_zero s.params.raw h]; rfl
  | high hs => exact readElement_of_twelve_le hs s low
  | cw hs h | blk hs h | syn hs h | bstat hs h | out hs h | gfexp hs h | gflog hs h | fmttab hs h =>
    exact hs ▸ if_neg (Nat.not_lt.2 h)

theorem writeElement_of_namesNoElement (s : State) (v : Word) {space low : Nat} (h : NamesNoElement space low) :
    writeElement space low v s = s := by
  cases h with
  | register hs h => exact hs ▸ writeReg_of_nine_le (by omega) v s
  | cw hs h | blk hs h => exact hs ▸ if_neg (Nat.not_lt.2 h)
  | _ => exact writeElement_of_four_le (by omega) low v s

/-! ## The obligations -/

/-- Settles O22: the step is a cell write of the commands, and a cell address reads the code of its cell. -/
theorem gridWriteStoresOneCell : Obligations.GridWriteStoresOneCell := by
  intro s x y v rest hx hy h
  refine ⟨_, step_of_write_grid hx hy h, rfl, fun x' y' hx' hy' => ?_⟩
  have cell := gridCell_setGridCell { s with pending := rest, reply := none } (y := y) (y' := y') hx hx'
    (cellOfCode (v.extractLsb' 0 2))
  constructor
  · rw [cell, cellOfCode_lowBits]
    rfl
  · rw [readAt_grid _ hx' hy', readAt_grid s hx' hy', cell, apply_ite cellCode, apply_ite (BitVec.setWidth 32),
      cellCode_lowBits]
    rfl

/-- Settles O25, by the space and the element select of the address; `CMD` is a location, so nothing is executed. -/
theorem unnamedAddressesReadZeroAndDropWrites : Obligations.UnnamedAddressesReadZeroAndDropWrites := by
  intro s a ha
  have place : NamesNoElement (addrSpace a) (addrLow a) := namesNoElement_of_namesNoLocation ha
  refine ⟨readElement_of_namesNoElement s place, fun v rest h => ?_⟩
  have notCmd : a ≠ 0x00001 := by
    rintro rfl
    exact absurd ha (by unfold NamesNoLocation; decide)
  rw [step_of_write h notCmd, writeElement_of_namesNoElement _ v place]

end Sys2Proof.Proofs
end

section
/-!
SUPPORT AND PROOFS. The bytes as residues of polynomials over GF(2) modulo `PRIM_POLY`, the powers of `ALPHA` as all
the non-zero bytes, the inverse and the discrete logarithm as exponents, and the statements about powers, inverses and
the table look-up (40_field_and_bit_primitives.md R87, R88, R89).
-/

namespace Sys2Proof.Proofs

open Polynomial

/-! ## Bit vectors as polynomials over GF(2) -/

/-- The polynomial whose coefficient of `X ^ i` is bit `i` (40_field_and_bit_primitives.md R84). -/
noncomputable def polyOf {w : Nat} (v : BitVec w) : (ZMod 2)[X] :=
  ∑ i ∈ Finset.range w, if v.getLsbD i then X ^ i else 0

theorem coeff_polyOf {w : Nat} (v : BitVec w) (i : Nat) :
    (polyOf v).coeff i = if v.getLsbD i then 1 else 0 := by
  have term (j : Nat) : (if v.getLsbD j then (X : (ZMod 2)[X]) ^ j else 0).coeff i =
      if i = j then (if v.getLsbD i then 1 else 0) else 0 := by
    by_cases hij : i = j
    · subst hij
      cases v.getLsbD i <;> simp
    · cases v.getLsbD j <;> simp [coeff_X_pow, hij]
  rw [polyOf, finsetSum_coeff, Finset.sum_congr rfl fun j _ => term j, Finset.sum_ite_eq]
  by_cases hi : i < w
  · rw [if_pos (Finset.mem_range.2 hi)]
  · simp [hi, BitVec.getLsbD_of_ge v i (Nat.le_of_not_lt hi)]

theorem polyOf_zero {w : Nat} : polyOf (0 : BitVec w) = 0 := by simp [polyOf]

theorem polyOf_one : polyOf (1 : Byte) = 1 := by
  ext i
  rw [coeff_polyOf, coeff_one]
  by_cases hi : i = 0 <;> simp [hi]

theorem polyOf_xor {w : Nat} (u v : BitVec w) : polyOf (u ^^^ v) = polyOf u + polyOf v := by
  ext i
  rw [coeff_add, coeff_polyOf, coeff_polyOf, coeff_polyOf, BitVec.getLsbD_xor]
  cases u.getLsbD i <;> cases v.getLsbD i <;> decide

/-- No bit of `v` from bit `n` on is one: its polynomial has a degree below `n`. -/
def ZeroFrom {w : Nat} (n : Nat) (v : BitVec w) : Prop := ∀ i, n ≤ i → v.getLsbD i = false

theorem zeroFrom_width {w : Nat} (v : BitVec w) : ZeroFrom w v := v.getLsbD_of_ge

theorem degree_polyOf_lt_iff {w n : Nat} (v : BitVec w) : (polyOf v).degree < n ↔ ZeroFrom n v := by
  simp [degree_lt_iff_coeff_zero, coeff_polyOf, ZeroFrom]

/-- A change of width that drops no one bit keeps the polynomial. -/
theorem polyOf_setWidth {w n : Nat} {v : BitVec w} (h : ZeroFrom n v) : polyOf (v.setWidth n) = polyOf v := by
  ext i
  rw [coeff_polyOf, coeff_polyOf, BitVec.getLsbD_setWidth]
  by_cases hi : i < n
  · simp [hi]
  · simp [hi, h i (Nat.le_of_not_lt hi)]

/-- A shift that drops no one bit is a product with a power of `X`. -/
theorem polyOf_setWidth_shiftLeft {w n k : Nat} (v : BitVec w) (h : w + k ≤ n) :
    polyOf (v.setWidth n <<< k) = polyOf v * X ^ k := by
  ext i
  rw [coeff_mul_X_pow', coeff_polyOf, coeff_polyOf, BitVec.getLsbD_shiftLeft, BitVec.getLsbD_setWidth]
  by_cases hk : k ≤ i
  · by_cases hi : i < n
    · simp [hk, hi, show i - k < n by omega, show ¬i < k by omega]
    · simp [hk, hi, BitVec.getLsbD_of_ge v (i - k) (by omega)]
  · simp [hk, show i < k by omega]

theorem polyOf_injective {w : Nat} : Function.Injective (polyOf (w := w)) := by
  intro u v h
  refine BitVec.eq_of_getLsbD_eq fun i _ => ?_
  have hi := congrArg (coeff · i) h
  simp only [coeff_polyOf] at hi
  revert hi
  cases u.getLsbD i <;> cases v.getLsbD i <;> decide

/-! ## The two loops of the multiplication -/

/-- The first loop multiplies the polynomials (40_field_and_bit_primitives.md R86). -/
theorem polyOf_clProduct (a b : Byte) : polyOf (clProduct a b) = polyOf a * polyOf b := by
  have loop : ∀ (l : List Nat) (p : BitVec 15), (∀ i ∈ l, i < 8) →
      polyOf (l.foldl (fun p i => if b.getLsbD i then p ^^^ (a.setWidth 15 <<< i) else p) p) =
        polyOf p + polyOf a * (l.map fun i => if b.getLsbD i then X ^ i else 0).sum := by
    intro l
    induction l with
    | nil => simp
    | cons i l ih =>
      intro p hl
      obtain ⟨hi, hl⟩ := List.forall_mem_cons.1 hl
      rw [List.foldl_cons, ih _ hl, List.map_cons, List.sum_cons]
      split
      · rw [polyOf_xor, polyOf_setWidth_shiftLeft a (by omega)]
        ring
      · rw [zero_add]
  rw [clProduct, loop _ _ (by decide), polyOf_zero, zero_add]
  rfl

/-- One turn of the second loop (40_field_and_bit_primitives.md R86). -/
def reduceStep (poly : BitVec 9) (p : BitVec 15) (i : Nat) : BitVec 15 :=
  if p.getLsbD i then p ^^^ (poly.setWidth 15 <<< (i - 8)) else p

theorem gfReduce_eq_foldl_reduceStep (poly : BitVec 9) (p : BitVec 15) :
    gfReduce poly p = [14, 13, 12, 11, 10, 9, 8].foldl (reduceStep poly) p := rfl

/-- A turn clears its bit and sets none above it. -/
theorem zeroFrom_reduceStep {poly : BitVec 9} (lead : poly.getLsbD 8 = true) {p : BitVec 15} {i : Nat}
    (hi : 8 ≤ i ∧ i < 15) (h : ZeroFrom (i + 1) p) : ZeroFrom i (reduceStep poly p i) := by
  obtain ⟨h8, h15⟩ := hi
  intro j hj
  unfold reduceStep
  split
  case isTrue one =>
    rw [BitVec.getLsbD_xor, BitVec.getLsbD_shiftLeft, BitVec.getLsbD_setWidth]
    rcases hj.eq_or_lt with rfl | above
    · rw [one, Nat.sub_sub_self h8, lead]
      simp [h15, (Nat.sub_le i 8).not_gt]
    · simp [h j above, BitVec.getLsbD_of_ge poly (j - (i - 8)) (by omega)]
  case isFalse zero =>
    rcases hj.eq_or_lt with rfl | above
    · exact eq_false_of_ne_true zero
    · exact h j above

theorem zeroFrom_gfReduce {poly : BitVec 9} (lead : poly.getLsbD 8 = true) (p : BitVec 15) :
    ZeroFrom 8 (gfReduce poly p) := by
  have turn {q : BitVec 15} (i : Nat) (hi : 8 ≤ i ∧ i < 15) :
      ZeroFrom (i + 1) q → ZeroFrom i (reduceStep poly q i) := zeroFrom_reduceStep lead hi
  rw [gfReduce_eq_foldl_reduceStep]
  exact turn 8 (by decide) <| turn 9 (by decide) <| turn 10 (by decide) <| turn 11 (by decide) <|
    turn 12 (by decide) <| turn 13 (by decide) <| turn 14 (by decide) (zeroFrom_width p)

/-- A turn adds a multiple of the defining polynomial, if anything. -/
theorem mk_polyOf_reduceStep (poly : BitVec 9) (p : BitVec 15) {i : Nat} (hi : i < 15) :
    AdjoinRoot.mk (polyOf poly) (polyOf (reduceStep poly p i)) = AdjoinRoot.mk (polyOf poly) (polyOf p) := by
  unfold reduceStep
  split
  · rw [polyOf_xor, polyOf_setWidth_shiftLeft poly (by omega), map_add, map_mul, AdjoinRoot.mk_self, zero_mul,
      add_zero]
  · rfl

/-- The second loop stays in the residue class of its argument. -/
theorem mk_polyOf_gfReduce (poly : BitVec 9) (p : BitVec 15) :
    AdjoinRoot.mk (polyOf poly) (polyOf (gfReduce poly p)) = AdjoinRoot.mk (polyOf poly) (polyOf p) := by
  have loop : ∀ (l : List Nat) (q : BitVec 15), (∀ i ∈ l, i < 15) →
      AdjoinRoot.mk (polyOf poly) (polyOf (l.foldl (reduceStep poly) q)) =
        AdjoinRoot.mk (polyOf poly) (polyOf q) := by
    intro l
    induction l with
    | nil => exact fun _ _ => rfl
    | cons i l ih =>
      intro q hl
      obtain ⟨hi, hl⟩ := List.forall_mem_cons.1 hl
      rw [List.foldl_cons, ih _ hl, mk_polyOf_reduceStep poly q hi]
  rw [gfReduce_eq_foldl_reduceStep]
  exact loop _ p (by decide)

/-! ## Bytes as residues -/

/-- The facts of well-formed parameters about the field (40_field_and_bit_primitives.md R84). -/
theorem field_wf (p : Params) : p.raw.primPoly.getLsbD 8 = true ∧ alphaPrimitive p.raw = true := by
  have h := p.ok
  simp only [RawParams.wf, Bool.and_eq_true] at h
  obtain ⟨⟨⟨⟨lead, -⟩, -⟩, -⟩, prim⟩ := h
  exact ⟨lead, prim⟩

/-- The residue of a byte's polynomial modulo `PRIM_POLY`. The field operations on bytes are the ring operations on
residues (`residue_gfAdd`, `residue_gfMul`), and a byte is determined by its residue (`residue_injective`). -/
noncomputable def residue (p : Params) (a : Byte) : AdjoinRoot (polyOf p.raw.primPoly) :=
  AdjoinRoot.mk _ (polyOf a)

theorem residue_zero (p : Params) : residue p 0 = 0 := by rw [residue, polyOf_zero, map_zero]

theorem residue_one (p : Params) : residue p 1 = 1 := by rw [residue, polyOf_one, map_one]

@[simp] theorem residue_gfAdd (p : Params) (a b : Byte) : residue p (gfAdd a b) = residue p a + residue p b := by
  rw [gfAdd, residue, polyOf_xor, map_add]
  rfl

@[simp] theorem residue_gfMul (p : Params) (a b : Byte) :
    residue p (gfMul p.raw a b) = residue p a * residue p b := by
  rw [gfMul, residue, polyOf_setWidth (zeroFrom_gfReduce (field_wf p).1 _), mk_polyOf_gfReduce, polyOf_clProduct,
    map_mul]
  rfl

/-- `PRIM_POLY` has degree 8 and bytes have degree below 8, so no two bytes are congruent. -/
theorem residue_injective (p : Params) : Function.Injective (residue p) := by
  intro a b h
  have dvd : polyOf p.raw.primPoly ∣ polyOf a - polyOf b := AdjoinRoot.mk_eq_mk.1 h
  have lead : ¬(polyOf p.raw.primPoly).degree < (8 : Nat) := by
    rw [degree_polyOf_lt_iff]
    exact fun zero => absurd ((zero 8 le_rfl).symm.trans (field_wf p).1) (by decide)
  have small (c : Byte) : (polyOf c).degree < (8 : Nat) := (degree_polyOf_lt_iff c).2 (zeroFrom_width c)
  have diff : (polyOf a - polyOf b).degree < (polyOf p.raw.primPoly).degree :=
    ((degree_sub_le _ _).trans_lt (max_lt (small a) (small b))).trans_le (not_lt.1 lead)
  exact polyOf_injective (sub_eq_zero.1 (eq_zero_of_dvd_of_degree_lt dvd diff))

/-! ## The powers of `ALPHA` -/

theorem residue_apow (p : Params) (e : Nat) : residue p (apow p.raw e) = residue p p.raw.alpha ^ e := by
  induction e with
  | zero => rw [apow, residue_one, pow_zero]
  | succ e ih => rw [apow, residue_gfMul, ih, pow_succ]

theorem apow_one (p : Params) : apow p.raw 1 = p.raw.alpha :=
  residue_injective p (by rw [residue_apow, pow_one])

/-- The powers multiply by adding exponents (40_field_and_bit_primitives.md R87). -/
theorem gfMul_apow_apow (p : Params) (i j : Nat) :
    gfMul p.raw (apow p.raw i) (apow p.raw j) = apow p.raw (i + j) :=
  residue_injective p (by simp only [residue_gfMul, residue_apow, pow_add])

/-- The set of powers holds the powers of its range and what was seen before. -/
theorem testBit_powerSet (π : RawParams) (a : Nat) :
    ∀ (n e seen : Nat), (powerSet π n (apow π e) seen).testBit a = true ↔
      seen.testBit a = true ∨ ∃ i < n, (apow π (e + i)).toNat = a := by
  intro n
  induction n with
  | zero => simp [powerSet]
  | succ n ih =>
    intro e seen
    rw [powerSet, ← apow, ih, Nat.testBit_or, Bool.or_eq_true, Nat.exists_lt_succ_left, or_assoc]
    simp [Nat.one_shiftLeft, Nat.testBit_two_pow, Nat.add_comm, Nat.add_left_comm]

/-- The first 255 powers are the non-zero bytes (40_field_and_bit_primitives.md R84). -/
theorem exists_apow_iff (p : Params) (a : Byte) : (∃ e < 255, apow p.raw e = a) ↔ a ≠ 0 := by
  have set : powerSet p.raw 255 (apow p.raw 0) 0 = 2 ^ 256 - 2 := of_decide_eq_true (field_wf p).2
  have mem := testBit_powerSet p.raw a.toNat 255 0 0
  rw [set, Nat.testBit_two_pow_sub_succ (x := 1) (by decide)] at mem
  simp only [Nat.zero_testBit, Bool.false_eq_true, false_or, Nat.zero_add, BitVec.toNat_inj] at mem
  rw [← mem, Bool.and_eq_true, Bool.not_eq_true', ← Bool.not_eq_true, Nat.testBit_one_eq_true_iff_self_eq_zero]
  simp [← BitVec.toNat_inj, a.isLt]

/-- They are pairwise different, as 255 of them meet 255 bytes. -/
theorem apow_injOn (p : Params) : Set.InjOn (apow p.raw) (Finset.range 255) := by
  apply Finset.injOn_of_card_image_eq
  have image : (Finset.range 255).image (apow p.raw) = Finset.univ.erase 0 := by
    ext a
    simp only [Finset.mem_image, Finset.mem_range, exists_apow_iff, Finset.mem_erase, Finset.mem_univ, and_true]
  rw [image, Finset.card_erase_of_mem (Finset.mem_univ _), Finset.card_univ, ← FinEnum.card_eq_fintypeCard,
    FinEnum.card_bitVec, Finset.card_range]
  rfl

theorem apow_ne_apow (p : Params) {i j : Nat} (hi : i < 255) (hj : j < 255) (h : i ≠ j) :
    apow p.raw i ≠ apow p.raw j :=
  fun heq => h (apow_injOn p (by simpa using hi) (by simpa using hj) heq)

theorem gfAdd_self (a : Byte) : gfAdd a a = 0 := BitVec.xor_self

theorem gfAdd_eq_zero_iff {a b : Byte} : gfAdd a b = 0 ↔ a = b := BitVec.xor_eq_zero_iff

/-- 1 is a multiple of `ALPHA`: where `1 + ALPHA` is the power `k + 1`, it is `ALPHA` times `1 + apow k`. -/
theorem exists_residue_mul_alpha_eq_one (p : Params) : ∃ c, residue p c * residue p p.raw.alpha = 1 := by
  have sum_ne_zero : gfAdd 1 p.raw.alpha ≠ 0 := by
    rw [Ne, gfAdd_eq_zero_iff, ← apow_one p]
    exact apow_ne_apow p (i := 0) (j := 1) (by decide) (by decide) (by decide)
  obtain ⟨k, -, hk⟩ := (exists_apow_iff p _).2 sum_ne_zero
  have sum : residue p p.raw.alpha ^ k = 1 + residue p p.raw.alpha := by
    rw [← residue_apow, hk, residue_gfAdd, residue_one]
  have double : residue p p.raw.alpha + residue p p.raw.alpha = 0 := by
    rw [← residue_gfAdd, gfAdd_self, residue_zero]
  cases k with
  | zero =>
    have alpha_zero : p.raw.alpha = 0 :=
      residue_injective p (by rw [residue_zero]; linear_combination -sum)
    exact absurd alpha_zero (apow_one p ▸ (exists_apow_iff p _).1 ⟨1, by decide, rfl⟩)
  | succ k =>
    refine ⟨gfAdd 1 (apow p.raw k), ?_⟩
    rw [residue_gfAdd, residue_one, residue_apow]
    linear_combination sum + double

/-- The factor with product 1 is a power, and only 254 is an exponent that it can have. -/
theorem apow_255 (p : Params) : apow p.raw 255 = 1 := by
  obtain ⟨c, hc⟩ := exists_residue_mul_alpha_eq_one p
  have c_ne_zero : c ≠ 0 := by
    rintro rfl
    rw [residue_zero, zero_mul, ← residue_zero p, ← residue_one p] at hc
    exact absurd (residue_injective p hc) (by decide)
  obtain ⟨m, hm, rfl⟩ := (exists_apow_iff p c).2 c_ne_zero
  have round : apow p.raw (m + 1) = apow p.raw 0 :=
    residue_injective p (by rw [residue_apow, pow_succ, ← residue_apow, hc, apow, residue_one])
  by_cases last : m = 254
  · rw [last] at round
    exact round
  · exact absurd round (apow_ne_apow p (by omega) (by decide) (Nat.succ_ne_zero m))

/-- A power depends on its exponent modulo 255 only (40_field_and_bit_primitives.md R87). -/
theorem apow_mod (p : Params) (e : Nat) : apow p.raw (e % 255) = apow p.raw e := by
  have round : residue p p.raw.alpha ^ 255 = 1 := by rw [← residue_apow, apow_255, residue_one]
  exact residue_injective p (by rw [residue_apow, residue_apow, ← pow_eq_pow_mod e round])

theorem apow_congr (p : Params) {i j : Nat} (h : i % 255 = j % 255) : apow p.raw i = apow p.raw j := by
  rw [← apow_mod, h, apow_mod]

theorem apow_ne_zero (p : Params) (e : Nat) : apow p.raw e ≠ 0 :=
  (exists_apow_iff p _).1 ⟨e % 255, Nat.mod_lt _ (by decide), apow_mod p e⟩

/-! ## The inverse -/

/-- The inverse is the power with exponent 254 times that of its argument (log 7). -/
theorem gfInv_apow (p : Params) (e : Nat) : gfInv p.raw (apow p.raw e) = apow p.raw (254 * e) := by
  simp only [gfInv, gfMul_apow_apow]
  congr 1
  omega

theorem gfMul_gfInv_self (p : Params) {a : Byte} (h : a ≠ 0) : gfMul p.raw a (gfInv p.raw a) = 1 := by
  obtain ⟨e, -, rfl⟩ := (exists_apow_iff p a).2 h
  rw [gfInv_apow, gfMul_apow_apow]
  exact apow_congr p (j := 0) (by omega)

/-- Uniqueness: `b = inv(a) (*) a (*) b`. -/
theorem gfMul_eq_one_iff (p : Params) {a : Byte} (h : a ≠ 0) (b : Byte) :
    gfMul p.raw a b = 1 ↔ b = gfInv p.raw a := by
  have inverse : residue p a * residue p (gfInv p.raw a) = 1 := by
    rw [← residue_gfMul, gfMul_gfInv_self p h, residue_one]
  constructor
  · intro hb
    have product : residue p a * residue p b = 1 := by rw [← residue_gfMul, hb, residue_one]
    refine residue_injective p ?_
    linear_combination residue p (gfInv p.raw a) * product - residue p b * inverse
  · rintro rfl
    exact gfMul_gfInv_self p h

/-! ## The table look-up -/

/-- The search answers an exponent of its range with the power `a`, if there is one. -/
theorem gflogFrom_spec (π : RawParams) (a : Byte) :
    ∀ (fuel e : Nat), (∃ i, e ≤ i ∧ i < e + fuel ∧ apow π i = a) →
      e ≤ gflogFrom π a fuel e (apow π e) ∧ gflogFrom π a fuel e (apow π e) < e + fuel ∧
        apow π (gflogFrom π a fuel e (apow π e)) = a := by
  intro fuel
  induction fuel with
  | zero =>
    rintro e ⟨i, lower, upper, -⟩
    omega
  | succ fuel ih =>
    rintro e ⟨i, lower, upper, hi⟩
    rw [gflogFrom, ← show apow π (e + 1) = gfMul π (apow π e) π.alpha from rfl]
    split
    case isTrue found => exact ⟨le_rfl, by omega, found⟩
    case isFalse other =>
      have later : i ≠ e := by
        rintro rfl
        exact other hi
      obtain ⟨lower', upper', power⟩ := ih (e + 1) ⟨i, by omega, by omega, hi⟩
      exact ⟨by omega, by omega, power⟩

/-- `GFLOG` of a non-zero byte is its exponent in 1 to 255 (15_rom_tables.md R46). -/
theorem gflog_spec (p : Params) {a : Byte} (h : a ≠ 0) :
    1 ≤ gflog p.raw a ∧ gflog p.raw a ≤ 255 ∧ apow p.raw (gflog p.raw a) = a := by
  obtain ⟨e, he, power⟩ := (exists_apow_iff p a).2 h
  have found : ∃ i, 1 ≤ i ∧ i < 1 + 255 ∧ apow p.raw i = a := by
    by_cases first : e = 0
    · refine ⟨255, by decide, by decide, ?_⟩
      rw [← power, first]
      exact apow_255 p
    · exact ⟨e, by omega, by omega, power⟩
  obtain ⟨lower, upper, log⟩ := gflogFrom_spec p.raw a 255 1 found
  rw [gflog, if_neg h, ← apow_one p]
  exact ⟨lower, by omega, log⟩

theorem gfMul_eq_zero_of_eq_zero (p : Params) {a b : Byte} (h : a = 0 ∨ b = 0) : gfMul p.raw a b = 0 := by
  refine residue_injective p ?_
  rw [residue_gfMul, residue_zero]
  rcases h with rfl | rfl
  · rw [residue_zero, zero_mul]
  · rw [residue_zero, mul_zero]

/-! ## The obligations -/

/-- Settles O29: the exponent 255 comes round by `apow_255`, the others modulo it. -/
theorem powersComeRoundAfter255 : Obligations.PowersComeRoundAfter255 :=
  fun p e => ⟨rfl, rfl, apow_ne_zero p e, (apow_mod p e).symm, apow_255 p⟩

/-- Settles O30: a product with the 254th power of a byte is its 255th power, and `254 * e` is `-e` modulo 255. -/
theorem inverseIsTheOneByteWithProductOne : Obligations.InverseIsTheOneByteWithProductOne := by
  refine fun p => ⟨fun a b h => gfMul_eq_one_iff p h b, fun e => ?_⟩
  rw [gfInv_apow]
  exact apow_congr p (by omega)

/-- Settles O31: each factor is the power of its logarithm, and the logarithms add. -/
theorem tableLookUpMultiplies : Obligations.TableLookUpMultiplies := by
  refine fun p a b => ⟨gfMul_eq_zero_of_eq_zero p, fun ha hb => ?_⟩
  obtain ⟨lower, -, loga⟩ := gflog_spec p ha
  obtain ⟨-, -, logb⟩ := gflog_spec p hb
  rw [gfexp, if_neg (Nat.succ_ne_zero _)]
  calc gfMul p.raw a b
      = gfMul p.raw (apow p.raw (gflog p.raw a)) (apow p.raw (gflog p.raw b)) := by rw [loga, logb]
    _ = apow p.raw (gflog p.raw a + gflog p.raw b) := gfMul_apow_apow p _ _
    _ = apow p.raw ((gflog p.raw a + gflog p.raw b - 1) % 255 + 1) := apow_congr p (by omega)

end Sys2Proof.Proofs
end

section
/-!
SUPPORT AND PROOFS. The level field and the mask id as parts of the five data bits, how the format search ends for a
word, the three ends of FMTDEC, and the statement about it (41_format_decode.md R98, R99, R100).
-/

namespace Sys2Proof.Proofs

open Sys2Proof.Machine Sys2Proof.Claims

/-! ## The fields of the decoded format word -/

/-- The level field is the upper two and the mask id the lower three of the five data bits (30_encoding.md R81). -/
theorem level_mask_of_data_bits {w : BitVec 15} {k : Nat} (hk : k < 32) (data : w.extractLsb' 10 5 = BitVec.ofNat 5 k) :
    w.extractLsb' 13 2 = BitVec.ofNat 2 (k / 8) ∧ w.extractLsb' 10 3 = BitVec.ofNat 3 (k % 8) := by
  have bits : w.toNat / 1024 % 32 = k := by
    simpa [← BitVec.toNat_inj, Nat.shiftRight_eq_div_pow, Nat.mod_eq_of_lt hk] using data
  refine ⟨BitVec.eq_of_toNat_eq ?level, BitVec.eq_of_toNat_eq ?mask⟩
  all_goals
    simp only [BitVec.extractLsb'_toNat, BitVec.toNat_ofNat, Nat.shiftRight_eq_div_pow]
    omega

/-! ## The three ends of FMTDEC -/

/-- The format search answers nothing when no entry is near, whatever the table (41_format_decode.md R98). -/
theorem fmtMatch_eq_none_iff_not_near {π : RawParams} {raw : BitVec 15} :
    fmtMatch π raw = none ↔ ∀ j < 32, ¬Near π raw j := fmtMatch_eq_none

theorem fmtdecBody_of_primary {s : State} {k : Nat} (first : FirstNear s.params.raw s.fmtRaw0 k) :
    fmtdecBody s = .goesOn (fmtAccept 0 k (setStage 1 s)) := by
  simp only [fmtdecBody, setStage_params, setStage_fmtRaw0, fmtMatch_eq_some_iff_firstNear.2 first]

theorem fmtdecBody_of_secondary {s : State} {k : Nat} (primary : ∀ j < 32, ¬Near s.params.raw s.fmtRaw0 j)
    (first : FirstNear s.params.raw s.fmtRaw1 k) : fmtdecBody s = .goesOn (fmtAccept 1 k (setStage 1 s)) := by
  simp only [fmtdecBody, setStage_params, setStage_fmtRaw0, setStage_fmtRaw1, fmtMatch_eq_none_iff_not_near.2 primary,
    fmtMatch_eq_some_iff_firstNear.2 first]

theorem fmtdecBody_of_neither {s : State} (primary : ∀ j < 32, ¬Near s.params.raw s.fmtRaw0 j)
    (secondary : ∀ j < 32, ¬Near s.params.raw s.fmtRaw1 j) :
    fmtdecBody s = raiseFailure .formatUndecodable 0 (setStage 1 s) := by
  simp only [fmtdecBody, setStage_params, setStage_fmtRaw0, setStage_fmtRaw1, fmtMatch_eq_none_iff_not_near.2 primary,
    fmtMatch_eq_none_iff_not_near.2 secondary]

/-- FMTDEC leaves what its body leaves, ended or not. -/
theorem exec_fmtdec (s : State) : exec .fmtdec s = .next (fmtdecBody s).state := rfl

/-! ## The obligation -/

/-- Settles O35: the search of each word is decided by the near entries, and each end of the body writes what the
statement lists. -/
theorem fmtdecTakesTheFirstNearEntry : Obligations.FmtdecTakesTheFirstNearEntry := by
  refine ⟨by decide, fun k hk => level_mask_of_data_bits hk (formatWord_data_bits k hk),
    fun s => ⟨?primary, ?secondary, ?neither⟩⟩
  case primary =>
    intro k first
    rw [exec_fmtdec, fmtdecBody_of_primary first]
    rfl
  case secondary =>
    intro primary k first
    rw [exec_fmtdec, fmtdecBody_of_secondary primary first]
    rfl
  case neither =>
    intro primary secondary
    rw [exec_fmtdec, fmtdecBody_of_neither primary secondary]
    rfl

end Sys2Proof.Proofs
end

section
/-!
SUPPORT AND PROOFS. The mask of one cell, the cells of the loop of UNMASK, what the loop leaves in every cell and at every
index of `GRID`, the two ends of UNMASK, and the statements about it (42_mask.md R105, R106, R107).
-/

namespace Sys2Proof.Proofs

open Sys2Proof.Machine Sys2Proof.Claims

/-! ## The mask of one cell -/

theorem maskflag_eq_maskRule (p : BitVec 3) (x y : Nat) : maskflag p x y = maskRule p.toNat x y := by
  have hp : p.toNat < 8 := p.isLt
  unfold maskflag maskRule
  generalize p.toNat = m at hp ⊢
  interval_cases m <;> rfl

/-- What pattern `p` makes of a cell in column `x`, row `y` (42_mask.md R105). -/
def maskCell (p : BitVec 3) (x y : Nat) (c : Cell) : Cell := if maskflag p x y = true then flipCell c else c

/-- The flag does not depend on the cell's value, so the pattern is its own inverse (42_mask.md R107). -/
theorem maskCell_maskCell (p : BitVec 3) (x y : Nat) (c : Cell) : maskCell p x y (maskCell p x y c) = c := by
  unfold maskCell
  split
  · exact flipCell_flipCell c
  · rfl

/-- The pattern changes only a data cell, which it gives the other colour. -/
theorem maskCell_eq_ite_maskRule (p : BitVec 3) (x y : Nat) (c : Cell) :
    maskCell p x y c =
      if c ≠ .function ∧ maskRule p.toNat x y = true then (if c = .dataLight then .dataDark else .dataLight)
      else c := by
  rw [maskCell, maskflag_eq_maskRule]
  cases c <;> simp [flipCell]

/-! ## The cells of the loop -/

theorem gridCells_eq_map_swap_product (n : Nat) :
    gridCells n = (List.range n ×ˢ List.range n).map Prod.swap := by
  simp only [gridCells, SProd.sprod, List.product, List.map_flatMap, List.map_map]
  rfl

theorem mem_gridCells {n x y : Nat} : (x, y) ∈ gridCells n ↔ x < n ∧ y < n := by
  simp [gridCells_eq_map_swap_product, and_comm]

/-- The loop visits no cell twice. -/
theorem nodup_gridCells (n : Nat) : (gridCells n).Nodup := by
  rw [gridCells_eq_map_swap_product]
  exact (List.nodup_range.product List.nodup_range).map Prod.swap_injective

/-! ## One turn of the loop -/

/-- A function cell and a cell that the pattern leaves alone are not written at all (42_mask.md R105). -/
theorem unmaskCell_eq (s : State) (xy : Nat × Nat) :
    unmaskCell s xy =
      if gridCell s xy.1 xy.2 ≠ .function ∧ maskflag s.mask xy.1 xy.2 = true
      then setGridCell xy.1 xy.2 (flipCell (gridCell s xy.1 xy.2)) s else s := rfl

theorem unmaskCell_frame (s : State) (xy : Nat × Nat) : unmaskCell s xy = { s with grid := (unmaskCell s xy).grid } := by
  rw [unmaskCell_eq]
  split <;> rfl

@[simp] theorem unmaskCell_mask (s : State) (xy : Nat × Nat) : (unmaskCell s xy).mask = s.mask := by
  rw [unmaskCell_frame]

theorem readGrid_unmaskCell {s : State} {xy : Nat × Nat} {a : Nat} (h : a ≠ 256 * xy.2 + xy.1) :
    readGrid (unmaskCell s xy) a = readGrid s a := by
  rw [unmaskCell_eq]
  split
  · rw [readGrid_setGridCell, if_neg h]
  · rfl

theorem gridCell_unmaskCell (s : State) {xy : Nat × Nat} {x y : Nat} (hxy : xy.1 < 256) (hx : x < 256) :
    gridCell (unmaskCell s xy) x y =
      if (x, y) = xy then maskCell s.mask x y (gridCell s x y) else gridCell s x y := by
  rw [unmaskCell_eq]
  by_cases same : (x, y) = xy
  · obtain rfl := same
    rw [if_pos rfl, maskCell]
    split
    case isTrue flips => rw [gridCell_setGridCell s hx hx, if_pos ⟨rfl, rfl⟩, if_pos flips.2]
    case isFalse keeps =>
      split
      case isTrue flag =>
        have function : gridCell s x y = .function := by_contra fun data => keeps ⟨data, flag⟩
        rw [function, flipCell]
      case isFalse => rfl
  · rw [if_neg same]
    split
    · rw [gridCell_setGridCell s hxy hx, if_neg fun h => same (Prod.ext h.1 h.2)]
    · rfl

/-! ## The loop -/

theorem foldl_unmaskCell_frame (l : List (Nat × Nat)) (s : State) :
    l.foldl unmaskCell s = { s with grid := (l.foldl unmaskCell s).grid } := by
  induction l generalizing s with
  | nil => rfl
  | cons xy l ih => rw [List.foldl_cons, ih, unmaskCell_frame]

theorem readGrid_foldl_unmaskCell {l : List (Nat × Nat)} {a : Nat} (h : ∀ xy ∈ l, a ≠ 256 * xy.2 + xy.1) (s : State) :
    readGrid (l.foldl unmaskCell s) a = readGrid s a := by
  induction l generalizing s with
  | nil => rfl
  | cons xy l ih =>
    obtain ⟨here, later⟩ := List.forall_mem_cons.1 h
    rw [List.foldl_cons, ih later, readGrid_unmaskCell here]

/-- A loop over different cells masks each of them once, whatever their order (42_mask.md R105). -/
theorem gridCell_foldl_unmaskCell {l : List (Nat × Nat)} (once : l.Nodup) (columns : ∀ xy ∈ l, xy.1 < 256) (s : State)
    {x y : Nat} (hx : x < 256) :
    gridCell (l.foldl unmaskCell s) x y =
      if (x, y) ∈ l then maskCell s.mask x y (gridCell s x y) else gridCell s x y := by
  induction l generalizing s with
  | nil => rfl
  | cons xy l ih =>
    obtain ⟨fresh, once⟩ := List.nodup_cons.1 once
    obtain ⟨column, columns⟩ := List.forall_mem_cons.1 columns
    rw [List.foldl_cons, ih once columns, unmaskCell_mask, gridCell_unmaskCell s column hx]
    by_cases here : (x, y) = xy
    · rw [← here] at fresh
      rw [if_neg fresh, if_pos here, if_pos (List.mem_cons.2 (.inl here))]
    · simp only [List.mem_cons, here, false_or, if_false]

/-! ## The two ends of UNMASK -/

/-- What UNMASK leaves under a legal version (42_mask.md R105). -/
def unmasked (s : State) : State := (gridCells (moduleCount s)).foldl unmaskCell (setStage 2 s)

theorem unmaskBody_of_legal {s : State} (h : LegalVersion s) : unmaskBody s = .goesOn (unmasked s) :=
  checkVersion_of_valid (validVersion_of_legal h) _

theorem unmaskBody_of_not_legal {s : State} (h : ¬LegalVersion s) :
    unmaskBody s = .ended (recordFailure .badParameter 1 s) :=
  checkVersion_of_not_valid (validVersion_of_not_legal h) _

/-- UNMASK leaves what its body leaves, ended or not. -/
theorem exec_unmask (s : State) : exec .unmask s = .next (unmaskBody s).state := rfl

theorem exec_unmask_of_legal {s : State} (h : LegalVersion s) : exec .unmask s = .next (unmasked s) := by
  rw [exec_unmask, unmaskBody_of_legal h]
  rfl

theorem unmasked_frame (s : State) : unmasked s = { s with stage := 2, grid := (unmasked s).grid } :=
  foldl_unmaskCell_frame _ (setStage 2 s)

@[simp] theorem unmasked_version (s : State) : (unmasked s).version = s.version := by
  rw [unmasked_frame]

@[simp] theorem unmasked_mask (s : State) : (unmasked s).mask = s.mask := by
  rw [unmasked_frame]

theorem legalVersion_unmasked {s : State} (h : LegalVersion s) : LegalVersion (unmasked s) := by
  rwa [LegalVersion, unmasked_version]

/-- The largest grid has 177 rows and columns. -/
theorem moduleCount_lt {s : State} (h : LegalVersion s) : moduleCount s < 256 := by
  obtain ⟨-, upper⟩ := h
  rw [moduleCount]
  omega

theorem gridCell_unmasked {s : State} (h : LegalVersion s) {x y : Nat} (hx : x < 256) :
    gridCell (unmasked s) x y =
      if x < moduleCount s ∧ y < moduleCount s then maskCell s.mask x y (gridCell s x y) else gridCell s x y := by
  have columns : ∀ xy ∈ gridCells (moduleCount s), xy.1 < 256 :=
    fun xy hxy => (mem_gridCells.1 hxy).1.trans (moduleCount_lt h)
  rw [unmasked, gridCell_foldl_unmaskCell (nodup_gridCells _) columns _ hx]
  simp only [mem_gridCells]
  rfl

/-- Outside the `N` by `N` grid the stored code itself is kept (42_mask.md R105). -/
theorem readGrid_unmasked {s : State} (h : LegalVersion s) {a : Nat}
    (outside : moduleCount s ≤ a % 256 ∨ moduleCount s ≤ a / 256) : readGrid (unmasked s) a = readGrid s a := by
  have bound := moduleCount_lt h
  refine readGrid_foldl_unmaskCell (fun xy hxy => ?_) (setStage 2 s)
  obtain ⟨column, row⟩ := mem_gridCells.1 hxy
  omega

/-! ## The obligations -/

/-- Settles O37: the loop masks each cell of the grid once and no other, and masking is the rule of the statement. -/
theorem unmaskFlipsTheMaskedDataCells : Obligations.UnmaskFlipsTheMaskedDataCells := by
  refine ⟨by decide, fun s => ⟨fun illegal => ?illegal, fun legal => ?legal⟩⟩
  case illegal =>
    rw [exec_unmask, unmaskBody_of_not_legal illegal]
    rfl
  case legal =>
    refine ⟨unmasked s, exec_unmask_of_legal legal, unmasked_frame s, fun x y hx _ => ?_,
      fun a outside => readGrid_unmasked legal outside⟩
    simp only [gridCell_unmasked legal hx, maskCell_eq_ite_maskRule, ← ite_and, and_assoc]
    rfl

/-- Settles O38: the second command masks the same cells with the same pattern, which is its own inverse. -/
theorem unmaskTwiceRestoresTheGrid : Obligations.UnmaskTwiceRestoresTheGrid := by
  intro s legal
  have legal' := legalVersion_unmasked legal
  refine ⟨unmasked s, unmasked (unmasked s), exec_unmask_of_legal legal, exec_unmask_of_legal legal',
    fun x y hx _ => ?_⟩
  have size : moduleCount (unmasked s) = moduleCount s := by rw [moduleCount, unmasked_version, moduleCount]
  rw [gridCell_unmasked legal' hx, gridCell_unmasked legal hx, size, unmasked_mask]
  split
  · exact maskCell_maskCell s.mask x y (gridCell s x y)
  · rfl

end Sys2Proof.Proofs
end

section
/-!
SUPPORT. The walk of EXTRACT as a set of cells: what one pair, all pairs and the right columns cover, and how many data
bits the walk meets (43_extract.md R113, R114, R118).
-/

namespace Sys2Proof.Proofs

open Sys2Proof.Machine Sys2Proof.Claims

/-! ## The cells of the walk -/

/-- The cells of the given columns in the first `n` rows, row after row. -/
def cellsOfColumns (n : Nat) (cols : List Nat) : List (Nat × Nat) :=
  (List.range n).flatMap fun y => cols.map fun x => (x, y)

theorem cellsOfColumns_append_perm (n : Nat) (left right : List Nat) :
    (cellsOfColumns n left ++ cellsOfColumns n right).Perm (cellsOfColumns n (left ++ right)) := by
  simpa only [cellsOfColumns, List.map_append] using List.flatMap_append_perm (List.range n) _ _

/-- A pair is swept whole in either direction: upward, its rows come in reverse (43_extract.md R113). -/
theorem sweepPair_perm (n : Nat) (up : Bool) (col : Nat) :
    (sweepPair n up col).Perm (cellsOfColumns n [col, col - 1]) := by
  cases up with
  | false => exact .refl _
  | true =>
    have reversed : ((List.range n).map fun i => n - 1 - i) = (List.range n).reverse := by
      simpa [List.range_eq_range'] using (List.reverse_range' (s := 0) (n := n)).symm
    have rows : sweepPair n true col =
        ((List.range n).map fun i => n - 1 - i).flatMap fun y => [col, col - 1].map fun x => (x, y) := by
      rw [List.flatMap_map]
      rfl
    rw [rows, reversed]
    exact (List.reverse_perm _).flatMap_right _

/-- The sweeps of all pairs cover the two columns of each (43_extract.md R113). -/
theorem sweepPairs_perm (n : Nat) (up : Bool) (cols : List Nat) :
    (sweepPairs n up cols).Perm (cellsOfColumns n (cols.flatMap fun col => [col, col - 1])) := by
  induction cols generalizing up with
  | nil => simp [sweepPairs, cellsOfColumns]
  | cons col cols ih =>
    exact ((sweepPair_perm n up col).append (ih _)).trans (cellsOfColumns_append_perm n [col, col - 1] _)

/-- From an even column from 8 on, the pairs hold every column down to 0 but 6: the pair after 8 and 7 is 5 and 4
(43_extract.md R113). -/
theorem rightColumns_pairs (k m : Nat) :
    ((rightColumns (k + m + 4) (8 + 2 * m)).flatMap fun col => [col, col - 1]) =
      ((List.range (9 + 2 * m)).filter fun x => decide (x ≠ 6)).reverse := by
  induction m with
  | zero =>
    have past : rightColumns k 0 = [] := by cases k <;> rfl
    simp [rightColumns, past, List.range_succ]
  | succ m ih =>
    have columns : rightColumns (k + (m + 1) + 4) (8 + 2 * (m + 1)) =
        (9 + 2 * m + 1) :: rightColumns (k + m + 4) (8 + 2 * m) := by
      rw [show k + (m + 1) + 4 = k + m + 4 + 1 by omega, rightColumns, if_neg (by omega), if_neg (by omega),
        show 8 + 2 * (m + 1) = 9 + 2 * m + 1 by omega, show 9 + 2 * m + 1 - 2 = 8 + 2 * m by omega]
    rw [columns, List.flatMap_cons, ih, show 9 + 2 * (m + 1) = 9 + 2 * m + 1 + 1 by omega, List.range_succ,
      List.range_succ]
    have kept : 9 + 2 * m + 1 ≠ 6 ∧ 9 + 2 * m ≠ 6 := by omega
    simp [kept]

/-- The walk covers the grid outside column 6, each cell once (43_extract.md R118). -/
theorem zigzag_perm (v : Nat) :
    (zigzag (17 + 4 * v)).Perm
      (cellsOfColumns (17 + 4 * v) ((List.range (17 + 4 * v)).filter fun x => decide (x ≠ 6))) := by
  have columns := rightColumns_pairs (9 + 2 * v) (4 + 2 * v)
  rw [show 9 + 2 * v + (4 + 2 * v) + 4 = 17 + 4 * v by omega, show 8 + 2 * (4 + 2 * v) = 17 + 4 * v - 1 by omega,
    show 9 + 2 * (4 + 2 * v) = 17 + 4 * v by omega] at columns
  refine (sweepPairs_perm _ true _).trans ?_
  rw [columns]
  exact List.Perm.flatMap_left _ fun y _ => (List.reverse_perm _).map _

/-- As many cells of some columns satisfy `p` as the rows together have in them. -/
theorem countP_cellsOfColumns (p : Nat × Nat → Bool) (n : Nat) (cols : List Nat) :
    (cellsOfColumns n cols).countP p = ((List.range n).map fun y => (cols.filter fun x => p (x, y)).length).sum := by
  simp only [cellsOfColumns, List.countP_flatMap, List.countP_map, Function.comp_def, ← List.countP_eq_length_filter]

/-! ## The data bits of the walk -/

/-- The bit a cell gives, dark as true, flipped where a pattern says so (30_encoding.md R80). -/
def cellBit (flip : Bool) : Cell → Option Bool
  | .function => none
  | .dataDark => some (!flip)
  | .dataLight => some flip

theorem isSome_cellBit (flip : Bool) (c : Cell) : (cellBit flip c).isSome = decide (c ≠ .function) := by
  cases c <;> rfl

theorem dataBits_eq_filterMap_cellBit (s : State) (n : Nat) (flips : Nat → Nat → Bool) :
    dataBits s n flips = (zigzag n).filterMap fun xy => cellBit (flips xy.1 xy.2) (gridCell s xy.1 xy.2) := by
  refine List.filterMap_congr fun xy _ => ?_
  cases gridCell s xy.1 xy.2 <;> rfl

/-- The walk meets every data cell outside column 6 once, so the bits are as many as the data cells
(43_extract.md R114, R118). -/
theorem length_dataBits (s : State) (v : Nat) (flips : Nat → Nat → Bool) :
    (dataBits s (17 + 4 * v) flips).length = dataCells s (17 + 4 * v) := by
  simp only [dataBits_eq_filterMap_cellBit, List.length_filterMap_eq_countP, isSome_cellBit]
  rw [(zigzag_perm v).countP_eq, countP_cellsOfColumns]
  simp only [List.filter_filter, dataCells, Bool.and_comm]

end Sys2Proof.Proofs
end

section
/-!
SUPPORT AND PROOFS. What the loop of EXTRACT holds after some data bits, the state it leaves and how it ends, and the
statement about a wrong count of codewords (43_extract.md R112, R114, R116).
-/

namespace Sys2Proof.Proofs

open Sys2Proof.Machine Sys2Proof.Claims

/-! ## One bit of the stream -/

/-- The accumulator with one more bit at its low end (43_extract.md R112). -/
def pushBit (acc : Byte) (dark : Bool) : Byte := (acc <<< 1) ||| (if dark then 1#8 else 0#8)

theorem getLsbD_pushBit (acc : Byte) (dark : Bool) {i : Nat} (hi : i < 8) :
    (pushBit acc dark).getLsbD i = if i = 0 then dark else acc.getLsbD (i - 1) := by
  rw [pushBit, BitVec.getLsbD_or, BitVec.getLsbD_shiftLeft]
  cases i with
  | zero => cases dark <;> rfl
  | succ i => cases dark <;> simp [hi]

/-- A bit that does not complete a codeword is kept in the accumulator. -/
theorem walkBit_of_room {w : Walk} (room : w.nbits + 1 ≠ 8) (t : Nat) (dark : Bool) :
    walkBit t w dark = { w with acc := pushBit w.acc dark, nbits := w.nbits + 1 } := if_neg room

/-- The eighth bit completes a codeword, which is stored while the count is below `T`. -/
theorem walkBit_of_eighth {w : Walk} (eighth : w.nbits + 1 = 8) (t : Nat) (dark : Bool) :
    walkBit t w dark =
      { count := w.count + 1, acc := 0, nbits := 0,
        cw := if w.count < t then Memory.write w.cw w.count (pushBit w.acc dark) else w.cw } := if_pos eighth

/-- A function cell leaves the walk as it is, a data cell gives it its bit (43_extract.md R112). -/
theorem walkCell_eq_cellBit (s : State) (t : Nat) (w : Walk) (xy : Nat × Nat) :
    walkCell s t w xy = (cellBit false (gridCell s xy.1 xy.2)).elim w (walkBit t w) := by
  rw [walkCell]
  cases gridCell s xy.1 xy.2 <;> rfl

/-- The walk takes the data bits one after the other. -/
theorem walk_eq_foldl_dataBits (s : State) (t : Nat) :
    walk s t = (dataBits s (moduleCount s) fun _ _ => false).foldl (walkBit t)
      { count := 0, acc := 0, nbits := 0, cw := s.cw } := by
  rw [dataBits_eq_filterMap_cellBit, List.foldl_filterMap, walk]
  refine List.foldl_ext _ _ _ fun w xy _ => ?_
  rw [walkCell_eq_cellBit]
  cases cellBit false (gridCell s xy.1 xy.2) <;> rfl

/-! ## The loop -/

/-- What the walk holds after the data bits `bits`, begun with the stream `cw`: the complete codewords are counted, the
bits after them stand in `acc`, and those of the codewords below `t` are stored, the first bit of each the most
significant (43_extract.md R112, R113). -/
structure Packs (t : Nat) (cw : Memory) (bits : List Bool) (w : Walk) : Prop where
  length : bits.length = 8 * w.count + w.nbits
  nbits_lt : w.nbits < 8
  acc : ∀ i < w.nbits, w.acc.getLsbD (w.nbits - 1 - i) = bits.getD (8 * w.count + i) false
  stored : ∀ free p, p < min w.count t → ∀ i < 8,
    (Memory.read free w.cw p).getLsbD (7 - i) = bits.getD (8 * p + i) false
  kept : ∀ free p, min w.count t ≤ p → Memory.read free w.cw p = Memory.read free cw p

theorem packs_nil (t : Nat) (cw : Memory) : Packs t cw [] { count := 0, acc := 0, nbits := 0, cw := cw } where
  length := rfl
  nbits_lt := Nat.zero_lt_succ 7
  acc := by simp
  stored := by simp
  kept := fun _ _ _ => rfl

section

variable {t : Nat} {cw : Memory} {bits : List Bool} {w : Walk}

/-- The accumulator after one more bit, whether or not that bit completes a codeword. -/
theorem Packs.getLsbD_pushBit (h : Packs t cw bits w) (dark : Bool) {i : Nat} (hi : i ≤ w.nbits) :
    (pushBit w.acc dark).getLsbD (w.nbits - i) = (bits ++ [dark]).getD (8 * w.count + i) false := by
  have bound := h.nbits_lt
  have length := h.length
  rw [Proofs.getLsbD_pushBit _ _ (by omega)]
  rcases Nat.lt_or_eq_of_le hi with earlier | rfl
  · rw [if_neg (by omega), Nat.sub_right_comm, h.acc i earlier, List.getD_append _ _ _ _ (by omega)]
  · rw [if_pos (Nat.sub_self _), ← length, List.getD_append_right _ _ _ _ le_rfl, Nat.sub_self]
    rfl

/-- A bit that comes later changes no bit of a complete codeword. -/
theorem Packs.getD_append (h : Packs t cw bits w) (dark : Bool) {p i : Nat} (hp : p < w.count) (hi : i < 8) :
    (bits ++ [dark]).getD (8 * p + i) false = bits.getD (8 * p + i) false :=
  List.getD_append _ _ _ _ (by rw [h.length]; omega)

theorem Packs.walkBit_of_room (h : Packs t cw bits w) (dark : Bool) (room : w.nbits + 1 ≠ 8) :
    Packs t cw (bits ++ [dark]) (walkBit t w dark) := by
  have bound := h.nbits_lt
  rw [Proofs.walkBit_of_room room]
  refine ⟨?_, Nat.lt_of_le_of_ne bound room, fun i hi => h.getLsbD_pushBit dark (Nat.lt_succ_iff.1 hi),
    fun free p hp i hi => ?_, h.kept⟩
  · rw [List.length_append, h.length]
    rfl
  · rw [h.getD_append dark (lt_min_iff.1 hp).1 hi, h.stored free p hp i hi]

theorem Packs.walkBit_of_eighth (h : Packs t cw bits w) (dark : Bool) (eighth : w.nbits + 1 = 8) :
    Packs t cw (bits ++ [dark]) (walkBit t w dark) := by
  have seven : w.nbits = 7 := Nat.succ_injective eighth
  have write_else : ∀ free p, p ≠ w.count → Memory.read free
      (if w.count < t then Memory.write w.cw w.count (pushBit w.acc dark) else w.cw) p = Memory.read free w.cw p := by
    intro free p other
    split
    · exact Memory.read_write_other _ _ _ other
    · rfl
  rw [Proofs.walkBit_of_eighth eighth]
  refine ⟨?length, Nat.zero_lt_succ 7, fun i hi => absurd hi i.not_lt_zero, fun free p hp i hi => ?stored,
    fun free p hp => ?kept⟩ <;> dsimp only at *
  case length =>
    rw [List.length_append, h.length, seven]
    rfl
  case stored =>
    obtain ⟨below, stores⟩ := lt_min_iff.1 hp
    rcases Nat.lt_or_eq_of_le (Nat.lt_succ_iff.1 below) with earlier | rfl
    · rw [write_else free p earlier.ne, h.getD_append dark earlier hi, h.stored free p (lt_min earlier stores) i hi]
    · rw [if_pos stores, Memory.read_write_same, ← seven]
      exact h.getLsbD_pushBit dark (by omega)
  case kept =>
    by_cases here : p = w.count
    · rw [if_neg (by omega)]
      exact h.kept free p (by omega)
    · rw [write_else free p here]
      exact h.kept free p (by omega)

/-- Every data bit is packed, the eighth of a codeword or not. -/
theorem Packs.walkBit (h : Packs t cw bits w) (dark : Bool) :
    Packs t cw (bits ++ [dark]) (walkBit t w dark) :=
  if eighth : w.nbits + 1 = 8 then h.walkBit_of_eighth dark eighth else h.walkBit_of_room dark eighth

end

theorem packs_foldl_walkBit (t : Nat) (cw : Memory) (bits : List Bool) :
    Packs t cw bits (bits.foldl (walkBit t) { count := 0, acc := 0, nbits := 0, cw := cw }) := by
  induction bits using List.reverseRecOn with
  | nil => exact packs_nil t cw
  | append_singleton bits dark ih =>
    rw [List.foldl_append]
    exact ih.walkBit dark

theorem packs_walk (s : State) (t : Nat) :
    Packs t s.cw (dataBits s (moduleCount s) fun _ _ => false) (walk s t) := by
  rw [walk_eq_foldl_dataBits]
  exact packs_foldl_walkBit t s.cw _

/-- The walk counts a codeword for every eight data cells (43_extract.md R114). -/
theorem count_walk (s : State) (t : Nat) : (walk s t).count = dataCells s (moduleCount s) / 8 := by
  have packs := packs_walk s t
  have bits : (dataBits s (moduleCount s) fun _ _ => false).length = dataCells s (moduleCount s) :=
    length_dataBits s _ _
  have bound := packs.nbits_lt
  have length := packs.length
  omega

/-! ## The state EXTRACT leaves -/

/-- What EXTRACT has stored when the walk is over (43_extract.md R112). -/
def extracted (s : State) : State :=
  let w := walk s (totalCodewords (capOf s))
  { s with stage := 3, cw := w.cw, cwCnt := BitVec.ofNat 13 (min w.count 0x1FFF) }

/-- EXTRACT fails when the count is another than `T` (43_extract.md R116). -/
theorem extractBody_of_legal {s : State} (h : LegalVersion s) :
    extractBody s =
      let count := (walk s (totalCodewords (capOf s))).count
      if count ≠ totalCodewords (capOf s)
      then .ended (recordFailure .moduleTraversalFailure (min count 0xFFFF) (extracted s))
      else .goesOn (extracted s) :=
  checkVersion_of_valid (validVersion_of_legal h) _

/-- EXTRACT leaves what its body leaves, ended or not. -/
theorem exec_extract (s : State) : exec .extract s = .next (extractBody s).state := rfl

theorem exec_extract_of_wrong_count {s : State} (legal : LegalVersion s)
    (wrong : dataCells s (moduleCount s) / 8 ≠ totalCodewords (capOf s)) :
    exec .extract s = .next (recordFailure .moduleTraversalFailure
      (min (dataCells s (moduleCount s) / 8) 0xFFFF) (extracted s)) := by
  simp only [exec_extract, extractBody_of_legal legal, count_walk]
  rw [if_pos wrong, Flow.state_ended]

/-- EXTRACT writes `STAGE`, `CW` and `CWCNT` and nothing else (43_extract.md R114, R116). -/
theorem extracted_frame (s : State) :
    extracted s = { s with
      stage := 3, cw := (extracted s).cw
      cwCnt := BitVec.ofNat 13 (min (dataCells s (moduleCount s) / 8) 0x1FFF) } := by
  rw [← count_walk s (totalCodewords (capOf s))]
  rfl

/-- The codewords that were formed below `T` hold the data bits, first bit most significant
(43_extract.md R113, R116). -/
theorem getLsbD_readCw_extracted (s : State) {p i : Nat}
    (hp : p < min (dataCells s (moduleCount s) / 8) (totalCodewords (capOf s))) (hi : i < 8) :
    (readCw (extracted s) p).getLsbD (7 - i) =
      (dataBits s (moduleCount s) fun _ _ => false).getD (8 * p + i) false := by
  rw [← count_walk s (totalCodewords (capOf s))] at hp
  exact (packs_walk s _).stored _ p hp i hi

/-- The rest of `CW` is as before (43_extract.md R116). -/
theorem readCw_extracted_of_le (s : State) {p : Nat}
    (hp : min (dataCells s (moduleCount s) / 8) (totalCodewords (capOf s)) ≤ p) :
    readCw (extracted s) p = readCw s p := by
  rw [← count_walk s (totalCodewords (capOf s))] at hp
  exact (packs_walk s _).kept _ p hp

/-! ## The obligation -/

/-- Settles O42: the walk counts a codeword for every eight data bits and stores those below `T`; the count is not `T`,
so the failure is recorded over what was stored. -/
theorem extractRecordsAWrongCount : Obligations.ExtractRecordsAWrongCount := by
  rintro s count legal rfl wrong
  exact ⟨_, exec_extract_of_wrong_count legal wrong, congrArg (recordFailure _ _) (extracted_frame s),
    fun _ hp _ hi => getLsbD_readCw_extracted s hp hi, fun _ hp => readCw_extracted_of_le s hp⟩

end Sys2Proof.Proofs
end

section
/-!
SUPPORT AND PROOFS. The round-robin order as a sequence of turns, what the loop of DEINT holds after some turns, and the
statement about DEINT (44_deinterleave.md R121, R122).

The blocks take turns: turn `n` is byte `n / B` of block `n % B`. A turn whose block has no such byte deals nothing, and
is one that `skipFull` passes over.
-/

namespace Sys2Proof.Proofs

open Sys2Proof.Machine Sys2Proof.Claims

/-! ## The turns of the round-robin -/

/-- The block in turn and the byte of it that the turn would fill, as `(b, j)`. -/
def turnPlace (c : CapRecord) (n : Nat) : Nat × Nat := (n % blockCount c, n / blockCount c)

/-- The block in turn has the byte. -/
def Deals (c : CapRecord) (n : Nat) : Prop := n / blockCount c < blockTotal c (n % blockCount c)

/-- The places dealt in the turns before turn `n`, in order. -/
def dealtBefore (c : CapRecord) (n : Nat) : List (Nat × Nat) :=
  ((List.range n).map (turnPlace c)).filter fun q => decide (q.2 < blockTotal c q.1)

theorem dealtBefore_succ_of_deals {c : CapRecord} {n : Nat} (h : Deals c n) :
    dealtBefore c (n + 1) = dealtBefore c n ++ [turnPlace c n] := by
  rw [Deals] at h
  simp [dealtBefore, List.range_succ, turnPlace, h]

theorem dealtBefore_succ_of_not_deals {c : CapRecord} {n : Nat} (h : ¬Deals c n) :
    dealtBefore c (n + 1) = dealtBefore c n := by
  rw [Deals] at h
  simp [dealtBefore, List.range_succ, turnPlace, h]

/-- A byte of a block has one turn, its own. -/
theorem turnPlace_eq_iff {c : CapRecord} (blocks : 0 < blockCount c) {n b j : Nat} :
    turnPlace c n = (b, j) ↔ b < blockCount c ∧ n = j * blockCount c + b := by
  rw [turnPlace, Prod.mk.injEq, and_comm, Nat.div_mod_unique blocks, and_comm, Nat.mul_comm, Nat.add_comm, eq_comm]

theorem mem_dealtBefore {c : CapRecord} (blocks : 0 < blockCount c) {n b j : Nat} :
    (b, j) ∈ dealtBefore c n ↔ b < blockCount c ∧ j < blockTotal c b ∧ j * blockCount c + b < n := by
  simp only [dealtBefore, List.mem_filter, List.mem_map, List.mem_range, turnPlace_eq_iff blocks, decide_eq_true_eq]
  constructor
  · rintro ⟨⟨n', before, block, rfl⟩, byte⟩
    exact ⟨block, byte, before⟩
  · rintro ⟨block, byte, before⟩
    exact ⟨⟨_, before, block, rfl⟩, byte⟩

theorem turnPlace_notMem_dealtBefore {c : CapRecord} (blocks : 0 < blockCount c) (n : Nat) :
    turnPlace c n ∉ dealtBefore c n := by
  intro dealt
  obtain ⟨-, -, before⟩ := (mem_dealtBefore blocks).1 dealt
  rw [Nat.div_add_mod'] at before
  exact lt_irrefl n before

/-- A place in the order lies in its block's row of `BLK`. -/
theorem byte_lt_of_mem_dealtBefore {c : CapRecord} (blocks : 0 < blockCount c)
    (short : ∀ b < blockCount c, blockTotal c b ≤ 255) {n b j : Nat} (dealt : (b, j) ∈ dealtBefore c n) : j < 256 := by
  obtain ⟨block, byte, -⟩ := (mem_dealtBefore blocks).1 dealt
  exact byte.trans (Nat.lt_succ_of_le (short b block))

theorem nodup_dealtBefore {c : CapRecord} (blocks : 0 < blockCount c) (n : Nat) : (dealtBefore c n).Nodup := by
  refine (List.nodup_range.map fun m n same => ?_).filter _
  have own := (turnPlace_eq_iff blocks).1 same
  rw [own.2, Nat.div_add_mod']

/-- The turns of whole rows deal byte `j` of every block that has one, in block order, for `j` from 0 up. -/
theorem dealtBefore_rows (c : CapRecord) (rows : Nat) :
    dealtBefore c (rows * blockCount c) = (List.range rows).flatMap fun j =>
      ((List.range (blockCount c)).filter fun b => decide (j < blockTotal c b)).map fun b => (b, j) := by
  induction rows with
  | zero => simp [dealtBefore]
  | succ j ih =>
    have row : (List.range (blockCount c)).map (turnPlace c ∘ (j * blockCount c + ·)) =
        (List.range (blockCount c)).map fun b => (b, j) := by
      refine List.map_congr_left fun b hb => ?_
      obtain ⟨hdiv, hmod⟩ := divMod_of_row (d := j) (List.mem_range.1 hb)
      rw [Function.comp_apply, turnPlace, hdiv, hmod]
    rw [dealtBefore] at ih ⊢
    rw [Nat.succ_mul, List.range_add, List.map_append, List.filter_append, ih, List.map_map, row, List.filter_map,
      List.range_succ, List.flatMap_append, List.flatMap_singleton]
    rfl

theorem dealtBefore_eq_dealOrder (c : CapRecord) : dealtBefore c (256 * blockCount c) = dealOrder c :=
  dealtBefore_rows c 256

/-! ## The places of the blocks -/

theorem mem_dealOrder {c : CapRecord} {b j : Nat} :
    (b, j) ∈ dealOrder c ↔ j < 256 ∧ b < blockCount c ∧ j < blockTotal c b := by
  simp [dealOrder]

/-- The blocks hold `T` codewords together: counted as the data codewords are, with a block's total for its
data. -/
theorem sum_blockTotal (c : CapRecord) : ((List.range (blockCount c)).map (blockTotal c)).sum = totalCodewords c :=
  dataBefore_blockCount { c with k1 := c.n1, k2 := c.n2 }

/-- Every byte of every block comes once in the order, so the order is as long as the stream. -/
theorem length_dealOrder {c : CapRecord} (blocks : 0 < blockCount c)
    (short : ∀ b < blockCount c, blockTotal c b ≤ 255) : (dealOrder c).length = totalCodewords c := by
  have blockwise : (dealOrder c).Perm
      ((List.range (blockCount c)).flatMap fun b => (List.range (blockTotal c b)).map fun j => (b, j)) := by
    refine (List.perm_ext_iff_of_nodup (dealtBefore_eq_dealOrder c ▸ nodup_dealtBefore blocks _) ?once).2 ?places
    case once =>
      refine List.nodup_flatMap.2 ⟨fun b _ => List.nodup_range.map (Prod.mk_right_injective b), ?_⟩
      refine List.nodup_range.imp fun different => ?_
      simp [Function.onFun, List.disjoint_left, different.symm]
    case places =>
      rintro ⟨b, j⟩
      have row : b < blockCount c → j < blockTotal c b → j < 256 :=
        fun block byte => Nat.lt_succ_of_le (byte.le.trans (short b block))
      simpa [mem_dealOrder] using row
  rw [blockwise.length_eq, List.length_flatMap, ← sum_blockTotal]
  simp

/-! ## The next block with room -/

/-- From the block of turn `m` the loop skips to the block of turn `n`, the first that is not full. -/
theorem skipFull_turn {c : CapRecord} {fill : List Nat} {fuel m n : Nat} (hmn : m ≤ n) (near : n < m + fuel)
    (full : ∀ k, m ≤ k → k < n → fill.getD (k % blockCount c) 0 = blockTotal c (k % blockCount c))
    (room : fill.getD (n % blockCount c) 0 ≠ blockTotal c (n % blockCount c)) :
    skipFull c fill fuel (m % blockCount c) = n % blockCount c := by
  induction fuel generalizing m with
  | zero => exact absurd hmn (Nat.not_le.2 near)
  | succ fuel ih =>
    rw [skipFull]
    rcases Nat.eq_or_lt_of_le hmn with rfl | hlt
    · rw [if_neg room]
    · rw [if_pos (full m le_rfl hlt), Nat.mod_add_mod]
      exact ih hlt (by omega) fun k hk => full k (Nat.le_of_succ_le hk)

/-! ## The loop -/

/-- What the loop holds before turn `n`, begun in the state `s`: it stands at the last turn that dealt, or after it at
turns that deal nothing; the counter of each block counts its places that were dealt; and byte `p` of the stream is at
the `p`-th place (44_deinterleave.md R121). -/
structure Dealt (c : CapRecord) (s : State) (n : Nat) (d : Deal) : Prop where
  turn : ∃ m ≤ n, d.b = m % blockCount c ∧ ∀ k, m ≤ k → k < n → ¬Deals c k
  counters : d.fill.length = blockCount c
  filled : ∀ b < blockCount c, ∀ j, j < d.fill.getD b 0 ↔ (b, j) ∈ dealtBefore c n
  frame : d.s = { s with blk := d.s.blk }
  stored : ∀ p b j, (dealtBefore c n)[p]? = some (b, j) → blkByte d.s b j = readCw s p
  kept : ∀ a, (∀ b j, (b, j) ∈ dealtBefore c n → a ≠ 256 * b + j) → readBlk d.s a = readBlk s a

theorem dealt_zero (c : CapRecord) (s : State) :
    Dealt c s 0 { b := 0, fill := List.replicate (blockCount c) 0, s := s } where
  turn := ⟨0, le_rfl, (Nat.zero_mod _).symm, fun k _ hk => absurd hk k.not_lt_zero⟩
  counters := List.length_replicate
  filled := by simp [dealtBefore]
  frame := rfl
  stored := by simp [dealtBefore]
  kept := fun _ _ => rfl

section

variable {c : CapRecord} {s : State} {n : Nat} {d : Deal}

/-- A turn that deals nothing leaves the loop where it is. -/
theorem Dealt.skip (h : Dealt c s n d) (passed : ¬Deals c n) : Dealt c s (n + 1) d := by
  have same := dealtBefore_succ_of_not_deals passed
  obtain ⟨m, hmn, hb, idle⟩ := h.turn
  refine ⟨⟨m, Nat.le_succ_of_le hmn, hb, fun k hk hkn => ?_⟩, h.counters, same ▸ h.filled, h.frame, same ▸ h.stored,
    same ▸ h.kept⟩
  rcases Nat.lt_succ_iff_lt_or_eq.1 hkn with earlier | rfl
  · exact idle k hk earlier
  · exact passed

/-- A block whose turn passed without a byte is full. -/
theorem Dealt.full (h : Dealt c s n d) (blocks : 0 < blockCount c) {k : Nat} (passed : ¬Deals c k) (hk : k < n) :
    d.fill.getD (k % blockCount c) 0 = blockTotal c (k % blockCount c) := by
  have block := Nat.mod_lt k blocks
  refine eq_of_forall_lt_iff fun j => ?_
  rw [h.filled _ block, mem_dealtBefore blocks]
  refine ⟨fun dealt => dealt.2.1, fun byte => ⟨block, byte, ?_⟩⟩
  calc j * blockCount c + k % blockCount c
      ≤ k / blockCount c * blockCount c + k % blockCount c :=
        Nat.add_le_add_right (Nat.mul_le_mul_right _ (byte.le.trans (Nat.not_lt.1 passed))) _
    _ = k := Nat.div_add_mod' k _
    _ < n := hk

/-- A block whose turn deals a byte has been dealt all its bytes before that one. -/
theorem Dealt.next_byte (h : Dealt c s n d) (blocks : 0 < blockCount c) (deals : Deals c n) :
    d.fill.getD (n % blockCount c) 0 = n / blockCount c := by
  have block := Nat.mod_lt n blocks
  refine eq_of_forall_lt_iff fun j => ?_
  rw [h.filled _ block, mem_dealtBefore blocks]
  have earlier : j * blockCount c + n % blockCount c < n ↔ j < n / blockCount c := by
    conv_lhs => rhs; rw [← Nat.div_add_mod' n (blockCount c)]
    rw [Nat.add_lt_add_iff_right, Nat.mul_lt_mul_right blocks]
  rw [earlier]
  exact ⟨fun dealt => dealt.2.2, fun hj => ⟨block, hj.trans deals, hj⟩⟩

/-- The loop finds the block of the next turn that deals: were that a whole row away, the same block would have been
dealt a byte one row before. -/
theorem Dealt.skipFull_eq (h : Dealt c s n d) (blocks : 0 < blockCount c) (deals : Deals c n) :
    skipFull c d.fill (blockCount c) d.b = n % blockCount c := by
  obtain ⟨m, hmn, hb, idle⟩ := h.turn
  rw [hb]
  refine skipFull_turn hmn ?near (fun k hk hkn => h.full blocks (idle k hk hkn) hkn) ?room
  case near =>
    by_contra far
    refine idle (n - blockCount c) (by omega) (by omega) ?_
    rw [Deals, ← Nat.mod_eq_sub_mod (by omega)]
    exact (Nat.div_le_div_right (Nat.sub_le _ _)).trans_lt deals
  case room =>
    rw [h.next_byte blocks deals]
    exact deals.ne

/-- In a turn that deals, the next byte of the stream goes to the place of that turn. -/
theorem Dealt.dealByte_eq (h : Dealt c s n d) (blocks : 0 < blockCount c) (deals : Deals c n) (p : Nat) :
    dealByte c d p =
      { b := (n + 1) % blockCount c
        fill := d.fill.set (n % blockCount c) (n / blockCount c + 1)
        s := setBlkByte (n % blockCount c) (n / blockCount c) (readCw s p) d.s } := by
  have stream : readCw d.s p = readCw s p := by
    rw [h.frame]
    rfl
  simp only [dealByte, h.skipFull_eq blocks deals, h.next_byte blocks deals, Nat.mod_add_mod, stream]

/-- After a turn that deals, the counter of its block counts the place of that turn too. -/
theorem Dealt.filled_deal (h : Dealt c s n d) (blocks : 0 < blockCount c) (deals : Deals c n) {b : Nat}
    (hb : b < blockCount c) (j : Nat) :
    j < (d.fill.set (n % blockCount c) (n / blockCount c + 1)).getD b 0 ↔ (b, j) ∈ dealtBefore c (n + 1) := by
  rw [dealtBefore_succ_of_deals deals, List.mem_append, ← h.filled b hb, List.mem_singleton, turnPlace, Prod.mk.injEq]
  by_cases same : b = n % blockCount c
  · subst same
    rw [List.getD_eq_getElem?_getD, List.getElem?_set_self (h.counters ▸ hb), h.next_byte blocks deals]
    simp [Nat.le_iff_lt_or_eq]
  · rw [List.getD_eq_getElem?_getD, List.getElem?_set_ne (Ne.symm same), ← List.getD_eq_getElem?_getD]
    simp [same]

/-- After a turn that deals, the place of that turn holds the new byte and the places before hold theirs. -/
theorem Dealt.stored_deal (h : Dealt c s n d) (blocks : 0 < blockCount c)
    (short : ∀ b < blockCount c, blockTotal c b ≤ 255) (deals : Deals c n) {p b j : Nat}
    (hp : (dealtBefore c (n + 1))[p]? = some (b, j)) :
    blkByte (setBlkByte (n % blockCount c) (n / blockCount c) (readCw s (dealtBefore c n).length) d.s) b j =
      readCw s p := by
  have here : n / blockCount c < 256 := deals.trans (Nat.lt_succ_of_le (short _ (Nat.mod_lt n blocks)))
  rw [blkByte_setBlkByte _ here (byte_lt_of_mem_dealtBefore blocks short (List.mem_of_getElem? hp))]
  rw [dealtBefore_succ_of_deals deals] at hp
  rcases Nat.lt_trichotomy p (dealtBefore c n).length with earlier | rfl | later
  · rw [List.getElem?_append_left earlier] at hp
    rw [if_neg, h.stored p b j hp]
    rintro ⟨rfl, rfl⟩
    exact turnPlace_notMem_dealtBefore blocks n (List.mem_of_getElem? hp)
  · rw [List.getElem?_concat_length, Option.some.injEq, turnPlace, Prod.mk.injEq] at hp
    rw [if_pos ⟨hp.1.symm, hp.2.symm⟩]
  · rw [List.getElem?_eq_none (by simpa using later)] at hp
    cases hp

/-- A turn that deals puts the next byte of the stream at the next place of the order. -/
theorem Dealt.deal (h : Dealt c s n d) (blocks : 0 < blockCount c)
    (short : ∀ b < blockCount c, blockTotal c b ≤ 255) (deals : Deals c n) :
    Dealt c s (n + 1) (dealByte c d (dealtBefore c n).length) := by
  rw [h.dealByte_eq blocks deals]
  refine ⟨⟨n + 1, le_rfl, rfl, fun k hk hkn => absurd hkn (Nat.not_lt.2 hk)⟩, ?counters,
    fun b hb j => h.filled_deal blocks deals hb j, ?frame, fun p b j hp => h.stored_deal blocks short deals hp,
    fun a ha => ?kept⟩
  case counters => rw [List.length_set, h.counters]
  case frame =>
    rw [h.frame]
    rfl
  case kept =>
    rw [dealtBefore_succ_of_deals deals] at ha
    rw [readBlk_setBlkByte, if_neg (ha _ _ List.mem_concat_self)]
    exact h.kept a fun b j dealt => ha b j (List.mem_append_left _ dealt)

end

/-- The loop has served as many bytes of the stream as the turns so far have dealt places. -/
theorem dealt_foldl_dealByte {c : CapRecord} (blocks : 0 < blockCount c)
    (short : ∀ b < blockCount c, blockTotal c b ≤ 255) (s : State) (n : Nat) :
    Dealt c s n ((List.range (dealtBefore c n).length).foldl (dealByte c)
      { b := 0, fill := List.replicate (blockCount c) 0, s := s }) := by
  induction n with
  | zero => exact dealt_zero c s
  | succ n ih =>
    by_cases deals : Deals c n
    · rw [dealtBefore_succ_of_deals deals, List.length_append, List.length_singleton, List.range_succ,
        List.foldl_concat]
      exact ih.deal blocks short deals
    · rw [dealtBefore_succ_of_not_deals deals]
      exact ih.skip deals

/-! ## The state DEINT leaves -/

/-- What DEINT leaves under a legal version (44_deinterleave.md R121). -/
def deinterleaved (s : State) : State := dealAll (capOf s) (clearBstat (setStage 4 s))

theorem deintBody_of_legal {s : State} (h : LegalVersion s) : deintBody s = .goesOn (deinterleaved s) :=
  checkVersion_of_valid (validVersion_of_legal h) _

theorem deintBody_of_not_legal {s : State} (h : ¬LegalVersion s) :
    deintBody s = .ended (recordFailure .badParameter 1 s) :=
  checkVersion_of_not_valid (validVersion_of_not_legal h) _

/-- DEINT leaves what its body leaves, ended or not. -/
theorem exec_deint (s : State) : exec .deint s = .next (deintBody s).state := rfl

theorem exec_deint_of_legal {s : State} (h : LegalVersion s) : exec .deint s = .next (deinterleaved s) := by
  rw [exec_deint, deintBody_of_legal h, Flow.state_goesOn]

/-- Under a legal version there is a block, and no block is longer than a row of `BLK` (15_rom_tables.md R49). -/
theorem capOf_blocks {s : State} (h : LegalVersion s) :
    0 < blockCount (capOf s) ∧ ∀ b < blockCount (capOf s), blockTotal (capOf s) b ≤ 255 := by
  obtain ⟨blocks, -, -, bounds⟩ := capRecord_bounds (capOf_wf (validVersion_of_legal h))
  exact ⟨blocks, fun b hb => (bounds b hb).2.2.1⟩

theorem length_dealOrder_capOf {s : State} (h : LegalVersion s) :
    (dealOrder (capOf s)).length = totalCodewords (capOf s) :=
  length_dealOrder (capOf_blocks h).1 (capOf_blocks h).2

/-- When DEINT is over, all the turns of all the rows are. -/
theorem dealt_deinterleaved {s : State} (h : LegalVersion s) :
    ∃ d, d.s = deinterleaved s ∧
      Dealt (capOf s) (clearBstat (setStage 4 s)) (256 * blockCount (capOf s)) d := by
  have loop := dealt_foldl_dealByte (capOf_blocks h).1 (capOf_blocks h).2 (clearBstat (setStage 4 s))
    (256 * blockCount (capOf s))
  rw [dealtBefore_eq_dealOrder, length_dealOrder_capOf h] at loop
  exact ⟨_, rfl, loop⟩

/-- DEINT writes `STAGE`, `BLK` and `BSTAT` and nothing else (44_deinterleave.md R121). -/
theorem deinterleaved_frame {s : State} (h : LegalVersion s) :
    deinterleaved s =
      { s with stage := 4, blk := (deinterleaved s).blk, bstat := Vector.replicate 128 0 } := by
  obtain ⟨d, hd, dealt⟩ := dealt_deinterleaved h
  exact hd ▸ dealt.frame

/-- Byte `p` of the stream is at the `p`-th place of the round-robin order (44_deinterleave.md R121, R122). -/
theorem blkByte_deinterleaved {s : State} (h : LegalVersion s) {p b j : Nat}
    (place : (dealOrder (capOf s))[p]? = some (b, j)) : blkByte (deinterleaved s) b j = readCw s p := by
  obtain ⟨d, hd, dealt⟩ := dealt_deinterleaved h
  exact hd ▸ dealt.stored p b j (dealtBefore_eq_dealOrder _ ▸ place)

/-- The bytes of `BLK` that are no codeword of a block are as before (44_deinterleave.md R121). -/
theorem readBlk_deinterleaved {s : State} (h : LegalVersion s) {a : Nat}
    (outside : ∀ b j, b < blockCount (capOf s) → j < blockTotal (capOf s) b → a ≠ 256 * b + j) :
    readBlk (deinterleaved s) a = readBlk s a := by
  obtain ⟨d, hd, dealt⟩ := dealt_deinterleaved h
  refine hd ▸ dealt.kept a fun b j hbj => ?_
  obtain ⟨block, byte, -⟩ := (mem_dealtBefore (capOf_blocks h).1).1 hbj
  exact outside b j block byte

/-! ## The obligation -/

/-- Settles O43: the loop deals in the turns of the round-robin, one byte of the stream in each turn whose block has
room, and those turns are the places of the order. -/
theorem deintDealsTheStreamRoundRobin : Obligations.DeintDealsTheStreamRoundRobin := by
  refine ⟨by decide, fun s => ⟨fun illegal => ?illegal, fun legal => ?legal⟩⟩
  case illegal =>
    rw [exec_deint, deintBody_of_not_legal illegal]
    rfl
  case legal =>
    exact ⟨length_dealOrder_capOf legal, deinterleaved s, exec_deint_of_legal legal, deinterleaved_frame legal,
      fun _ _ _ place => blkByte_deinterleaved legal place, fun _ outside => readBlk_deinterleaved legal outside⟩

end Sys2Proof.Proofs
end

section
/-!
SUPPORT AND PROOFS. Sums and polynomial values of bytes as those of their residues, the positions at which two byte
sequences differ, sequences with as many vanishing power sums as non-zero terms, and the statements about syndromes and
about the distance of a code (45_reed_solomon.md R128, R132).
-/

namespace Sys2Proof.Proofs

open Sys2Proof.Machine Sys2Proof.Claims Polynomial

/-! ## Sums and polynomial values as residues -/

theorem residue_gfSum (p : Params) (n : Nat) (f : Nat → Byte) :
    residue p (gfSum n f) = ∑ v ∈ Finset.range n, residue p (f v) := by
  induction n with
  | zero => exact residue_zero p
  | succ n ih =>
    have last : gfSum (n + 1) f = gfAdd (gfSum n f) (f n) := by simp [gfSum, List.range_succ]
    rw [last, residue_gfAdd, ih, Finset.sum_range_succ]

/-- Horner's rule computes the sum of the coefficients times the powers (40_field_and_bit_primitives.md R90, log 7). -/
theorem residue_polyEval (p : Params) (P : List Byte) (z : Byte) :
    residue p (polyEval p.raw P z) = ∑ v ∈ Finset.range P.length, residue p (P.getD v 0) * residue p z ^ v := by
  induction P with
  | nil => exact residue_zero p
  | cons c P ih =>
    have horner : polyEval p.raw (c :: P) z = gfAdd c (gfMul p.raw (polyEval p.raw P z) z) := rfl
    rw [horner, residue_gfAdd, residue_gfMul, ih, List.length_cons, Finset.sum_range_succ', Finset.sum_mul, add_comm]
    simp [pow_succ, mul_assoc]

theorem powerSum_eq_gfSum (π : RawParams) (r : List Byte) (i : Nat) :
    powerSum π r i = gfSum r.length fun v => gfMul π (r.getD v 0) (apow π (v * i)) := rfl

theorem residue_powerSum (p : Params) (r : List Byte) (i : Nat) :
    residue p (powerSum p.raw r i) =
      ∑ v ∈ Finset.range r.length, residue p (r.getD v 0) * residue p (apow p.raw v) ^ i := by
  simp only [powerSum_eq_gfSum, residue_gfSum, residue_gfMul, residue_apow, pow_mul]

theorem gfMul_one_right (p : Params) (a : Byte) : gfMul p.raw a 1 = a :=
  residue_injective p (by rw [residue_gfMul, residue_one, mul_one])

theorem gfSum_getD (r : List Byte) : gfSum r.length (fun v => r.getD v 0) = r.foldl gfAdd 0 := by
  have entries : (List.range r.length).map (fun v => r.getD v 0) = r :=
    List.ext_getElem (by simp) fun v _ hv => by simp [hv]
  rw [gfSum, ← List.foldl_map, entries]

/-! ## Differences of bytes -/

theorem residue_gfAdd_eq_sub (p : Params) (a b : Byte) : residue p (gfAdd a b) = residue p a - residue p b := by
  have double : residue p b + residue p b = 0 := by rw [← residue_gfAdd, gfAdd_self, residue_zero]
  rw [residue_gfAdd]
  linear_combination double

theorem isUnit_residue (p : Params) {a : Byte} (h : a ≠ 0) : IsUnit (residue p a) :=
  .of_mul_eq_one (residue p (gfInv p.raw a)) (by rw [← residue_gfMul, gfMul_gfInv_self p h, residue_one])

theorem isUnit_residue_sub (p : Params) {a b : Byte} (h : a ≠ b) : IsUnit (residue p a - residue p b) :=
  residue_gfAdd_eq_sub p a b ▸ isUnit_residue p (gfAdd_eq_zero_iff.not.2 h)

/-! ## The positions at which two sequences differ -/

/-- The positions of `r` at which `c` has another byte (40_field_and_bit_primitives.md R95). -/
def diffPositions (r c : List Byte) : Finset Nat := {v ∈ Finset.range r.length | r.getD v 0 ≠ c.getD v 0}

theorem mem_diffPositions {r c : List Byte} {v : Nat} :
    v ∈ diffPositions r c ↔ v < r.length ∧ r.getD v 0 ≠ c.getD v 0 := by simp [diffPositions]

theorem dist_eq_card_diffPositions :
    ∀ {r c : List Byte}, r.length = c.length → dist r c = (diffPositions r c).card
  | [], [], _ => rfl
  | a :: r, b :: c, h => by
    have tail := dist_eq_card_diffPositions (Nat.succ.inj h)
    rw [diffPositions, Finset.card_filter] at tail ⊢
    rw [List.length_cons, Finset.sum_range_succ']
    simp only [List.getD_cons_succ, List.getD_cons_zero, ← tail]
    simp [dist, List.countP_cons]

theorem eq_of_diffPositions_eq_empty {r c : List Byte} (h : r.length = c.length) (empty : diffPositions r c = ∅) :
    r = c := by
  refine List.ext_getElem h fun v hr hc => ?_
  by_contra differ
  have place : v ∈ diffPositions r c := mem_diffPositions.2 ⟨hr, by simpa [hr, hc] using differ⟩
  simp [empty] at place

/-- Where `c` and `d` differ, one of them differs from `r`. -/
theorem dist_le_dist_add_dist {r c d : List Byte} (hc : r.length = c.length) (hd : r.length = d.length) :
    dist c d ≤ dist r c + dist r d := by
  rw [dist_eq_card_diffPositions hc, dist_eq_card_diffPositions hd, dist_eq_card_diffPositions (hc.symm.trans hd)]
  refine (Finset.card_le_card fun v => ?_).trans (Finset.card_union_le _ _)
  simp only [Finset.mem_union, mem_diffPositions, ← hc]
  rintro ⟨hv, differ⟩
  by_cases same : r.getD v 0 = c.getD v 0
  · exact .inr ⟨hv, same ▸ differ⟩
  · exact .inl ⟨hv, same⟩

/-! ## As many vanishing power sums as terms -/

section

variable {R : Type} [CommRing R] {E : Finset Nat} {x d : Nat → R}

/-- Vanishing power sums up to a degree are a vanishing sum of the values of each polynomial below that degree. -/
theorem sum_mul_eval_eq_zero {n : Nat} (sums : ∀ i < n, ∑ v ∈ E, d v * x v ^ i = 0) {P : R[X]}
    (degree : P.natDegree < n) : ∑ v ∈ E, d v * P.eval (x v) = 0 := by
  simp only [eval_eq_sum_range' degree, Finset.mul_sum]
  rw [Finset.sum_comm]
  refine Finset.sum_eq_zero fun i hi => ?_
  calc ∑ v ∈ E, d v * (P.coeff i * x v ^ i)
      = P.coeff i * ∑ v ∈ E, d v * x v ^ i := by
        rw [Finset.mul_sum]
        exact Finset.sum_congr rfl fun v _ => mul_left_comm _ _ _
    _ = 0 := by rw [sums i (Finset.mem_range.1 hi), mul_zero]

/-- The Vandermonde system of R132 has the solution 0 only: the polynomial whose roots are the other `x v` leaves the
term of `w` alone, times a unit. -/
theorem eq_zero_of_power_sums_eq_zero (units : ∀ u ∈ E, ∀ v ∈ E, u ≠ v → IsUnit (x u - x v))
    (sums : ∀ i < E.card, ∑ v ∈ E, d v * x v ^ i = 0) {w : Nat} (hw : w ∈ E) : d w = 0 := by
  nontriviality R
  have degree : (Lagrange.nodal (E.erase w) x).natDegree < E.card := by
    rw [Lagrange.natDegree_nodal]
    exact Finset.card_erase_lt_of_mem hw
  have alone : d w * (Lagrange.nodal (E.erase w) x).eval (x w) = 0 := by
    rw [← sum_mul_eval_eq_zero sums degree, Finset.sum_eq_single_of_mem w hw]
    intro v hv other
    rw [Lagrange.eval_nodal_at_node (Finset.mem_erase.2 ⟨other, hv⟩), mul_zero]
  have unit : IsUnit ((Lagrange.nodal (E.erase w) x).eval (x w)) := by
    rw [Lagrange.eval_nodal, IsUnit.prod_iff]
    intro v hv
    obtain ⟨other, hv⟩ := Finset.mem_erase.1 hv
    exact units w hw v hv other.symm
  exact unit.mul_left_eq_zero.1 alone

end

/-! ## The distance of a code -/

/-- The difference of two members is a member, of which the positions with a non-zero byte count only. -/
theorem sum_diffPositions_eq_zero (p : Params) {t : Nat} {c d : List Byte} (length : c.length = d.length)
    (hc : InCode p.raw t c) (hd : InCode p.raw t d) {i : Nat} (hi : i < 2 * t) :
    ∑ v ∈ diffPositions c d, (residue p (c.getD v 0) - residue p (d.getD v 0)) * residue p (apow p.raw v) ^ i = 0 := by
  have drop : ∀ v ∈ Finset.range c.length,
      (residue p (c.getD v 0) - residue p (d.getD v 0)) * residue p (apow p.raw v) ^ i ≠ 0 →
        c.getD v 0 ≠ d.getD v 0 := by
    intro v _ term same
    exact term (by rw [same, sub_self, zero_mul])
  rw [diffPositions, Finset.sum_filter_of_ne drop]
  simp only [sub_mul, Finset.sum_sub_distrib]
  rw [← residue_powerSum, length, ← residue_powerSum, hc i hi, hd i hi, sub_self]

/-- Members that differ in `2t` bytes at most are equal: the `2t` syndromes of their difference vanish, and the powers
of `ALPHA` at its positions, which are below 255, are pairwise different. -/
theorem eq_of_inCode_of_dist_le (p : Params) {t : Nat} {c d : List Byte} (length : c.length = d.length)
    (bound : c.length ≤ 255) (hc : InCode p.raw t c) (hd : InCode p.raw t d) (near : dist c d ≤ 2 * t) : c = d := by
  rw [dist_eq_card_diffPositions length] at near
  have below {v : Nat} (hv : v ∈ diffPositions c d) : v < 255 := (mem_diffPositions.1 hv).1.trans_le bound
  refine eq_of_diffPositions_eq_empty length (Finset.eq_empty_of_forall_notMem fun w hw => ?_)
  have zero : residue p (c.getD w 0) - residue p (d.getD w 0) = 0 :=
    eq_zero_of_power_sums_eq_zero (x := fun v => residue p (apow p.raw v))
      (d := fun v => residue p (c.getD v 0) - residue p (d.getD v 0))
      (fun u hu v hv other => isUnit_residue_sub p (apow_ne_apow p (below hu) (below hv) other))
      (fun i hi => sum_diffPositions_eq_zero p length hc hd (hi.trans_le near)) hw
  exact (mem_diffPositions.1 hw).2 (residue_injective p (sub_eq_zero.1 zero))

/-! ## The obligations -/

/-- Settles O32: Horner's value and the power sum have the same residue, and the powers of index 0 are 1. -/
theorem syndromeIsThePowerSum : Obligations.SyndromeIsThePowerSum := by
  refine fun p r => ⟨fun i => residue_injective p ?horner, ?sum⟩
  case horner =>
    rw [syndrome, residue_polyEval, residue_powerSum]
    simp only [residue_apow, ← pow_mul, Nat.mul_comm]
  case sum =>
    have factor (v : Nat) : gfMul p.raw (r.getD v 0) (apow p.raw (v * 0)) = r.getD v 0 := gfMul_one_right p _
    simp only [powerSum_eq_gfSum, factor, gfSum_getD]

/-- Settles O33: members at a distance of `2t` at most are equal, and two members within `t` bytes of one sequence are
at such a distance. -/
theorem codeMembersLieFarApart : Obligations.CodeMembersLieFarApart := by
  intro p t c d length bound hc hd
  constructor
  · intro differ
    by_contra near
    exact differ (eq_of_inCode_of_dist_le p length bound hc hd (by omega))
  · intro r hr nearc neard
    have triangle : dist c d ≤ dist r c + dist r d := dist_le_dist_add_dist hr (hr.trans length)
    exact eq_of_inCode_of_dist_le p length bound hc hd (by omega)

end Sys2Proof.Proofs
end

section
/-!
SUPPORT AND PROOFS. A command word at the port, what `STATUS.ERR` says of how a command's body ended, a chain of bodies
as commands that a host issues, and the statements about NOP and RUN (46_sequencing.md R141, R142, R143).
-/

namespace Sys2Proof.Proofs

open Sys2Proof.Machine Sys2Proof.Claims

/-! ## A command word at the port -/

/-- A host write to `CMD` dispatches the word, and the port answers nothing (46_sequencing.md R141). -/
theorem step_of_command {s : State} {w : Word} {rest : List HostEvent} (h : s.pending = .write 0x00001 w :: rest) :
    step s = command w { s with pending := rest, reply := none } := by
  rw [step_of_pending_cons h, serve, hostWrite, if_pos rfl]

theorem decode_nop : decode 0x00000000 = .ok .nop := by decide

theorem exec_nop (s : State) : exec .nop s = .next s := rfl

/-- The word of NOP has the same result on both sides of the sticky gate (46_sequencing.md R142). -/
theorem command_nop (s : State) : command 0x00000000 s = .next s := by
  by_cases clear : s.err = 0
  · rw [command_of_open (.inl clear), decode_nop]
    exact exec_nop s
  · exact command_of_gate clear (by decide)

/-! ## `STATUS.ERR` tells how a body ended -/

/-- No failure is recorded where a body goes on, and one is where it was ended (60_exceptions.md R160). -/
def ErrTells : Flow → Prop
  | .goesOn t => t.err = 0
  | .ended t => t.err ≠ 0

theorem errTells_goesOn {t : State} : ErrTells (.goesOn t) ↔ t.err = 0 := Iff.rfl

/-- The code 0 stands for no failure (60_exceptions.md R150). -/
theorem failCode_ne_zero (k : FailKind) : failCode k ≠ 0 := by cases k <;> decide

theorem errTells_raiseFailure (k : FailKind) (info : Nat) (s : State) : ErrTells (raiseFailure k info s) :=
  failCode_ne_zero k

theorem errTells_checkVersion {s : State} {body : State → Flow} (h : LegalVersion s → ErrTells (body s)) :
    ErrTells (checkVersion s body) := by
  by_cases legal : LegalVersion s
  · rw [checkVersion_of_valid (validVersion_of_legal legal)]
    exact h legal
  · rw [checkVersion_of_not_valid (validVersion_of_not_legal legal)]
    exact errTells_raiseFailure .badParameter 1 s

section
variable {s : State} (clear : s.err = 0)
include clear

theorem errTells_fmtdecBody : ErrTells (fmtdecBody s) := by
  dsimp only [fmtdecBody]
  split
  case h_1 => exact clear
  case h_2 =>
    split
    case h_1 => exact clear
    case h_2 => exact errTells_raiseFailure .formatUndecodable 0 _

theorem errTells_unmaskBody : ErrTells (unmaskBody s) := by
  refine errTells_checkVersion fun _ => errTells_goesOn.2 ?_
  have frame := congrArg State.err (unmasked_frame s)
  exact frame.trans clear

theorem errTells_extractBody : ErrTells (extractBody s) := by
  refine errTells_checkVersion fun _ => ?_
  dsimp only
  split
  · exact errTells_raiseFailure .moduleTraversalFailure _ _
  · exact clear

theorem errTells_deintBody : ErrTells (deintBody s) := by
  refine errTells_checkVersion fun legal => errTells_goesOn.2 ?_
  have frame := congrArg State.err (deinterleaved_frame legal)
  exact frame.trans clear

end

/-! ## A chain of bodies as commands issued one after the other -/

theorem andThen_assoc (f : Flow) (g h : State → Flow) :
    (f.andThen g).andThen h = f.andThen fun s => (g s).andThen h := by
  cases f <;> rfl

/-- The host issues the rest exactly where the chain of bodies goes on, as the recorded failure tells it how the body
ended (46_sequencing.md R143). -/
theorem issueAll_cons_eq_andThen {i : Instr} {rest : List Instr} {s : State} {f : Flow} {g : State → Flow}
    (first : exec i s = .next f.state) (tells : ErrTells f)
    (later : ∀ t, t.err = 0 → issueAll rest t = .next (g t).state) :
    issueAll (i :: rest) s = .next (f.andThen g).state := by
  simp only [issueAll, first]
  cases f with
  | goesOn t =>
    have clear : t.err = 0 := tells
    rw [Flow.state_goesOn, if_pos clear, later t clear, Flow.goesOn_andThen]
  | ended t =>
    have recorded : t.err ≠ 0 := tells
    rw [Flow.state_ended, if_neg recorded, Flow.ended_andThen, Flow.state_ended]

/-- The last command leaves the same state whether or not the host sees a failure after it. -/
theorem issueAll_singleton {i : Instr} {s t : State} (h : exec i s = .next t) : issueAll [i] s = .next t := by
  simp only [issueAll, h, ite_self]

theorem exec_rsall (s : State) : exec .rsall s = .next (rsallBody s).state := rfl

theorem exec_run (s : State) : exec .run s = .next (runBody s).state := rfl

theorem runBody_of_not_legal {s : State} (h : ¬LegalVersion s) :
    runBody s = .ended (recordFailure .badParameter 1 s) :=
  checkVersion_of_not_valid (validVersion_of_not_legal h) _

/-- Under a legal version RUN is the chain of the five bodies, here grouped from the right as a host meets them. -/
theorem runBody_of_legal {s : State} (h : LegalVersion s) :
    runBody s = (fmtdecBody s).andThen fun s => (unmaskBody s).andThen fun s => (extractBody s).andThen fun s =>
      (deintBody s).andThen rsallBody := by
  rw [runBody, checkVersion_of_valid (validVersion_of_legal h)]
  simp only [andThen_assoc]

/-! ## The obligations -/

/-- Settles O8: the gate drops the word of NOP and the dispatch runs it, with one result. -/
theorem nopChangesNothing : Obligations.NopChangesNothing :=
  ⟨decode_nop, exec_nop, fun _ _ h => (step_of_command h).trans (command_nop _)⟩

/-- Settles O53: each of the five commands leaves what its body leaves, and records a failure exactly when its body was
ended, so that the host goes on where the chain of the bodies does. -/
theorem runIsTheFiveStagesInOrder : Obligations.RunIsTheFiveStagesInOrder := by
  refine ⟨by decide, fun s => ⟨fun illegal => ?illegal, fun legal clear => ?legal⟩⟩
  case illegal =>
    rw [exec_run, runBody_of_not_legal illegal]
    rfl
  case legal =>
    rw [exec_run, runBody_of_legal legal]
    symm
    refine issueAll_cons_eq_andThen (exec_fmtdec s) (errTells_fmtdecBody clear) fun s clear => ?_
    refine issueAll_cons_eq_andThen (exec_unmask s) (errTells_unmaskBody clear) fun s clear => ?_
    refine issueAll_cons_eq_andThen (exec_extract s) (errTells_extractBody clear) fun s clear => ?_
    refine issueAll_cons_eq_andThen (exec_deint s) (errTells_deintBody clear) fun s _ => ?_
    exact issueAll_singleton (exec_rsall s)

end Sys2Proof.Proofs
end

section
/-!
SUPPORT AND PROOFS. The words that the decoder rejects, and what the write of such a word to `CMD` records
(30_encoding.md R71 to R74; 60_exceptions.md R155).
-/

namespace Sys2Proof.Proofs

open Sys2Proof.Machine Sys2Proof.Claims

/-! ## The fields of a command word as numbers -/

theorem toNat_opField (w : Word) : (opField w).toNat = w.toNat % 256 := by simp [opField]

theorem toNat_blkSelField (w : Word) : (blkSelField w).toNat = w.toNat / 256 % 256 := by
  simp [blkSelField, Nat.shiftRight_eq_div_pow]

theorem toNat_highHalf (w : Word) : (highHalf w).toNat = w.toNat / 65536 := by
  simp only [highHalf, BitVec.extractLsb'_toNat, Nat.shiftRight_eq_div_pow]
  omega

theorem highHalf_ne_zero_iff (w : Word) : highHalf w ≠ 0 ↔ 65536 ≤ w.toNat := by
  rw [← BitVec.toNat_ne_iff_ne, toNat_highHalf, BitVec.ofNat_eq_ofNat, BitVec.toNat_zero]
  omega

theorem blkSelField_ne_zero_iff (w : Word) : blkSelField w ≠ 0 ↔ w.toNat / 256 % 256 ≠ 0 := by
  rw [← BitVec.toNat_ne_iff_ne, toNat_blkSelField, BitVec.ofNat_eq_ofNat, BitVec.toNat_zero]

/-! ## Which words the decoder rejects -/

/-- A word of format C0 is rejected for any bit above the opcode (30_encoding.md R71). -/
theorem decodeC0_eq_error {w : Word} (h : highHalf w ≠ 0 ∨ blkSelField w ≠ 0) (i : Instr) :
    ∃ e, decodeC0 w i = .error e := by
  by_cases high : highHalf w ≠ 0
  · exact ⟨_, if_pos high⟩
  · exact ⟨_, (if_neg high).trans (if_pos (h.resolve_left high))⟩

/-- A word of format C1 is rejected for a bit above the operand (30_encoding.md R71). -/
theorem decodeC1_eq_error {w : Word} (h : highHalf w ≠ 0) (i : Nat → Instr) : ∃ e, decodeC1 w i = .error e :=
  ⟨_, if_pos h⟩

/-- The opcode alone decides the format: eight opcodes of format C0, two of format C1, the others unassigned
(30_encoding.md R71, R73). -/
theorem decode_cases (w : Word) :
    ((opField w).toNat ∈ [0x00, 0x01, 0x02, 0x03, 0x04, 0x07, 0x08, 0x0F] ∧ ∃ i, decode w = decodeC0 w i) ∨
    ((opField w).toNat ∈ [0x05, 0x06] ∧ ∃ i, decode w = decodeC1 w i) ∨
    decode w = .error .unassignedOpcode := by
  unfold decode
  split
  case h_6 op => exact .inr (.inl ⟨by simp [op], _, rfl⟩)
  case h_7 op => exact .inr (.inl ⟨by simp [op], _, rfl⟩)
  case h_11 => exact .inr (.inr rfl)
  all_goals
    next op => exact .inl ⟨by simp [op], _, rfl⟩

/-- The decoder rejects every word of the three lists (30_encoding.md R74). -/
theorem decode_eq_error_of_listed {w : Word} (listed : ListedIllegalWord w) : ∃ e, decode w = .error e := by
  have opcode := toNat_opField w
  have high := highHalf_ne_zero_iff w
  have operand := blkSelField_ne_zero_iff w
  unfold ListedIllegalWord at listed
  rcases decode_cases w with ⟨c0, i, format⟩ | ⟨c1, i, format⟩ | unassigned
  · have nonzero : highHalf w ≠ 0 ∨ blkSelField w ≠ 0 := by
      rw [high, operand]
      simp only [List.mem_cons, List.not_mem_nil, or_false] at c0
      omega
    exact format ▸ decodeC0_eq_error nonzero i
  · have nonzero : highHalf w ≠ 0 := by
      rw [high]
      simp only [List.mem_cons, List.not_mem_nil, or_false] at c1 listed
      omega
    exact format ▸ decodeC1_eq_error nonzero i
  · exact ⟨_, unassigned⟩

/-! ## The obligation -/

/-- With no failure recorded, a word the decoder rejects records IllegalCommand (60_exceptions.md R155). -/
theorem command_of_decode_error {w : Word} {s : State} {e : IllegalWord} (clear : s.err = 0)
    (rejected : decode w = .error e) :
    command w s = .next { s with err := 8, errInfo := w.extractLsb' 0 16 } := by
  rw [command_of_open (.inl clear), rejected]
  simp only [recordFailure, failCode, BitVec.ofNat_toNat, BitVec.setWidth_eq]

/-- Settles O11: the gate is open, and the decoder rejects every listed word. -/
theorem illegalWordRecordsIllegalCommand : Obligations.IllegalWordRecordsIllegalCommand := by
  intro s w rest written clear listed
  obtain ⟨e, rejected⟩ := decode_eq_error_of_listed listed
  rw [step_of_command written]
  exact command_of_decode_error clear rejected

end Sys2Proof.Proofs
end

section
/-!
SUPPORT AND PROOFS. The word of a command as a number, each word as the encoding of its own fields, the decoder as the
inverse of the encoder, and the statements about decoding (30_encoding.md R71 to R74).
-/

namespace Sys2Proof.Proofs

open Sys2Proof.Machine Sys2Proof.Claims

/-! ## The word of a command as a number -/

theorem toNat_encodeC0 (op : BitVec 8) : (encodeC0 op).toNat = op.toNat :=
  (BitVec.toNat_append 0#24 op).trans (by simp)

theorem toNat_encodeC1 (op : BitVec 8) {blk : Nat} (h : blk < 256) : (encodeC1 op blk).toNat = 256 * blk + op.toNat := by
  have operand : (0#16 ++ BitVec.ofNat 8 blk).toNat = blk :=
    (BitVec.toNat_append 0#16 (BitVec.ofNat 8 blk)).trans (by simp [Nat.mod_eq_of_lt h])
  rw [encodeC1, BitVec.toNat_append, operand, ← Nat.shiftLeft_add_eq_or_of_lt op.isLt, Nat.shiftLeft_eq]
  omega

theorem opField_encodeC1 (op : BitVec 8) {blk : Nat} (h : blk < 256) : opField (encodeC1 op blk) = op := by
  have bound := op.isLt
  refine BitVec.eq_of_toNat_eq ?_
  rw [toNat_opField, toNat_encodeC1 op h]
  omega

theorem toNat_blkSelField_encodeC1 (op : BitVec 8) {blk : Nat} (h : blk < 256) :
    (blkSelField (encodeC1 op blk)).toNat = blk := by
  have bound := op.isLt
  rw [toNat_blkSelField, toNat_encodeC1 op h]
  omega

theorem highHalf_encodeC1 (op : BitVec 8) {blk : Nat} (h : blk < 256) : highHalf (encodeC1 op blk) = 0 := by
  have bound := op.isLt
  by_contra nonzero
  rw [← Ne, highHalf_ne_zero_iff, toNat_encodeC1 op h] at nonzero
  omega

/-- The word of a format C1 command decodes to the command with its operand (30_encoding.md R71, R72). -/
theorem decodeC1_encodeC1 (op : BitVec 8) {blk : Nat} (h : blk < 256) (i : Nat → Instr) :
    decodeC1 (encodeC1 op blk) i = .ok (i blk) := by
  rw [decodeC1, if_neg (not_not.2 (highHalf_encodeC1 op h)), toNat_blkSelField_encodeC1 op h]

/-! ## Each word is the encoding of its own fields -/

theorem highHalf_eq_zero_iff (w : Word) : highHalf w = 0 ↔ w.toNat < 65536 := by
  rw [← not_iff_not, ← Ne, highHalf_ne_zero_iff, Nat.not_lt]

theorem encodeC1_opField_blkSelField {w : Word} (high : highHalf w = 0) :
    encodeC1 (opField w) (blkSelField w).toNat = w := by
  rw [highHalf_eq_zero_iff] at high
  refine BitVec.eq_of_toNat_eq ?_
  rw [toNat_encodeC1 _ (blkSelField w).isLt, toNat_blkSelField, toNat_opField]
  omega

theorem encodeC0_opField {w : Word} (high : highHalf w = 0) (operand : blkSelField w = 0) :
    encodeC0 (opField w) = w := by
  rw [highHalf_eq_zero_iff] at high
  have low : w.toNat / 256 % 256 = 0 := by
    rw [← toNat_blkSelField, operand]
    rfl
  refine BitVec.eq_of_toNat_eq ?_
  rw [toNat_encodeC0, toNat_opField]
  omega

/-! ## What the decoder accepts in each format -/

theorem decodeC0_eq_ok_iff {w : Word} {i i' : Instr} :
    decodeC0 w i = .ok i' ↔ highHalf w = 0 ∧ blkSelField w = 0 ∧ i = i' := by
  rw [decodeC0]
  split
  case isTrue high => exact ⟨nofun, fun h => absurd h.1 high⟩
  case isFalse high =>
    split
    case isTrue operand => exact ⟨nofun, fun h => absurd h.2.1 operand⟩
    case isFalse operand =>
      rw [Except.ok.injEq]
      exact ⟨fun h => ⟨not_not.1 high, not_not.1 operand, h⟩, fun h => h.2.2⟩

theorem decodeC1_eq_ok_iff {w : Word} {i : Nat → Instr} {i' : Instr} :
    decodeC1 w i = .ok i' ↔ highHalf w = 0 ∧ i (blkSelField w).toNat = i' := by
  rw [decodeC1]
  split
  case isTrue high => exact ⟨nofun, fun h => absurd h.1 high⟩
  case isFalse high =>
    rw [Except.ok.injEq]
    exact ⟨fun h => ⟨not_not.1 high, h⟩, fun h => h.2⟩

/-- A word that decodes to `i` stands in the row of `i`, and its operand is that of `i` (30_encoding.md R73). -/
theorem wf_and_encode_of_decodeC0 {w : Word} {i i' : Instr} {op : Nat} (wf : i.wf = true)
    (row : encode i = encodeC0 (BitVec.ofNat 8 op)) (hop : (opField w).toNat = op) (h : decodeC0 w i = .ok i') :
    i'.wf = true ∧ encode i' = w := by
  obtain ⟨high, operand, rfl⟩ := decodeC0_eq_ok_iff.1 h
  exact ⟨wf, by rw [row, ← hop, BitVec.ofNat_toNat, BitVec.setWidth_eq, encodeC0_opField high operand]⟩

theorem wf_and_encode_of_decodeC1 {w : Word} {i : Nat → Instr} {i' : Instr} {op : Nat}
    (wf : ∀ blk < 256, (i blk).wf = true) (row : ∀ blk, encode (i blk) = encodeC1 (BitVec.ofNat 8 op) blk)
    (hop : (opField w).toNat = op) (h : decodeC1 w i = .ok i') : i'.wf = true ∧ encode i' = w := by
  obtain ⟨high, rfl⟩ := decodeC1_eq_ok_iff.1 h
  exact ⟨wf _ (blkSelField w).isLt, by
    rw [row, ← hop, BitVec.ofNat_toNat, BitVec.setWidth_eq, encodeC1_opField_blkSelField high]⟩

/-! ## The words that no list names -/

/-- A word of no list has an assigned opcode and no one bit outside its format's fields, so it decodes
(30_encoding.md R71, R74). -/
theorem exists_decode_eq_ok {w : Word} (unlisted : ¬ListedIllegalWord w) : ∃ i, decode w = .ok i := by
  simp only [ListedIllegalWord, not_or, not_and, Nat.not_le, not_not, ← toNat_opField, ← toNat_blkSelField] at unlisted
  obtain ⟨gap, above, low, operand⟩ := unlisted
  have high := (highHalf_eq_zero_iff w).2 low
  have c0 (i : Instr) (row : (opField w).toNat ∈ [0x00, 0x01, 0x02, 0x03, 0x04, 0x07, 0x08, 0x0F]) :
      ∃ i', decodeC0 w i = .ok i' :=
    ⟨i, decodeC0_eq_ok_iff.2 ⟨high, BitVec.eq_of_toNat_eq (operand row), rfl⟩⟩
  have c1 (i : Nat → Instr) : ∃ i', decodeC1 w i = .ok i' := ⟨_, decodeC1_eq_ok_iff.2 ⟨high, rfl⟩⟩
  unfold decode
  split
  case h_6 | h_7 => exact c1 _
  case h_11 =>
    simp only [imp_false] at *
    omega
  all_goals
    next op => exact c0 _ (by simp [op])

/-! ## The obligations -/

/-- Settles O1: a command without operand has one word; the word of a command with one carries it in its own byte. -/
theorem decodeOfEncodeIsTheCommand : Obligations.DecodeOfEncodeIsTheCommand := by
  intro i wf
  cases i with
  | synd blk =>
    have fits : blk < 256 := of_decide_eq_true wf
    rw [encode, decode, opField_encodeC1 _ fits]
    exact decodeC1_encodeC1 _ fits Instr.synd
  | rscor blk =>
    have fits : blk < 256 := of_decide_eq_true wf
    rw [encode, decode, opField_encodeC1 _ fits]
    exact decodeC1_encodeC1 _ fits Instr.rscor
  | nop | fmtdec | unmask | extract | deint | rsall | run | srst => decide

/-- Settles O2: the row is found by the opcode, and the word is the encoding of its own fields. -/
theorem everyLegalWordIsAnEncoding : Obligations.EveryLegalWordIsAnEncoding := by
  intro w i h
  unfold decode at h
  split at h
  case h_6 op => exact wf_and_encode_of_decodeC1 (i := Instr.synd) (fun _ => decide_eq_true) (fun _ => rfl) op h
  case h_7 op => exact wf_and_encode_of_decodeC1 (i := Instr.rscor) (fun _ => decide_eq_true) (fun _ => rfl) op h
  case h_11 => cases h
  all_goals
    next op => exact wf_and_encode_of_decodeC0 rfl rfl op h

/-- Settles O3: the decoder rejects the listed words and accepts the others. -/
theorem illegalWordsAreTheListedOnes : Obligations.IllegalWordsAreTheListedOnes := by
  refine fun w => ⟨fun ⟨e, rejected⟩ => ?_, decode_eq_error_of_listed⟩
  by_contra unlisted
  obtain ⟨i, accepted⟩ := exists_decode_eq_ok unlisted
  cases rejected.symm.trans accepted

/-- Settles O4: ten fixed words. -/
theorem wordsOfTheOpcodeMapDecode : Obligations.WordsOfTheOpcodeMapDecode := by
  refine ⟨?_, ?_, ?_, ?_, ?_, ?_, ?_, ?_, ?_, ?_⟩ <;> decide

end Sys2Proof.Proofs
end

section
/-!
SUPPORT AND PROOFS. Members of a code by their syndromes, how far the reference procedure moves a word, the ends of the
correction of one block whatever the procedure answers, and the statements about SYND and about RSCOR that rest on no
completeness of the procedure (45_reed_solomon.md R128 to R135).
-/

namespace Sys2Proof.Proofs

open Sys2Proof.Machine Sys2Proof.Claims

/-! ## Members by their syndromes -/

theorem syndrome_eq_powerSum (p : Params) (r : List Byte) (i : Nat) : syndrome p.raw r i = powerSum p.raw r i :=
  (syndromeIsThePowerSum p r).1 i

theorem length_syndromes (π : RawParams) (r : List Byte) (t : Nat) : (syndromes π r t).length = 2 * t := by
  simp [syndromes]

theorem getD_syndromes (p : Params) (r : List Byte) {t i : Nat} (hi : i < 2 * t) :
    (syndromes p.raw r t).getD i 0 = powerSum p.raw r i := by
  simp [syndromes, hi, syndrome_eq_powerSum]

theorem isMember_iff (p : Params) (r : List Byte) (t : Nat) : isMember p.raw r t = true ↔ InCode p.raw t r := by
  simp [isMember, syndromes, syndrome_eq_powerSum, InCode]

theorem isMember_eq_false_iff (p : Params) (r : List Byte) (t : Nat) :
    isMember p.raw r t = false ↔ ¬InCode p.raw t r := by
  rw [← isMember_iff, Bool.not_eq_true]

/-! ## How far the reference procedure moves a word -/

/-- Values are entered at the listed positions only (45_reed_solomon.md R137, step 3). -/
theorem getD_correctValues {π : RawParams} {W C' : List Byte} :
    ∀ {E : List Nat} {r c : List Byte}, correctValues π W C' E r = some c →
      ∀ v, v ∉ E → c.getD v 0 = r.getD v 0
  | [], r, c, h, v, _ => by
    rw [correctValues, Option.some.injEq] at h
    rw [h]
  | u :: E, r, c, h, v, hv => by
    obtain ⟨other, later⟩ := not_or.1 (List.mem_cons.not.1 hv)
    simp only [correctValues] at h
    split at h
    · cases h
    · split at h
      · cases h
      · rw [getD_correctValues h v later]
        simp only [List.getD_eq_getElem?_getD, List.getElem?_set_ne (Ne.symm other)]

theorem dist_le_of_correctValues {π : RawParams} {W C' : List Byte} {E : List Nat} {r c : List Byte}
    (h : correctValues π W C' E r = some c) : dist r c ≤ E.length := by
  rw [dist_eq_card_diffPositions (correctValues_length h).symm]
  have listed : diffPositions r c ⊆ E.toFinset := by
    intro v hv
    rw [List.mem_toFinset]
    by_contra unlisted
    exact (mem_diffPositions.1 hv).2 (getD_correctValues h v unlisted).symm
  exact (Finset.card_le_card listed).trans E.toFinset_card_le

/-- The locator's degree is within the capacity (45_reed_solomon.md R136, step 1). -/
theorem locate_degree_le {π : RawParams} {S C : List Byte} {t L : Nat} (h : locate π S t = some (C, L)) : L ≤ t := by
  simp only [locate] at h
  split at h
  · cases h
  · next fits =>
    cases h
    exact Nat.not_lt.1 (not_or.1 fits).2

theorem nearestMember_dist_le {π : RawParams} {r c : List Byte} {t : Nat} (h : nearestMember π r t = some c) :
    dist r c ≤ t := by
  simp only [nearestMember] at h
  split at h
  · cases h
  · next located =>
    split at h
    · cases h
    · next positions =>
      split at h
      · cases h
      · next corrected =>
        split at h
        · cases h
          exact (dist_le_of_correctValues corrected).trans
            ((not_not.1 positions).trans_le (locate_degree_le located))
        · cases h

theorem dist_self (r : List Byte) : dist r r = 0 := by
  rw [dist_eq_card_diffPositions rfl, Finset.card_eq_zero]
  exact Finset.eq_empty_of_forall_notMem fun v hv => (mem_diffPositions.1 hv).2 rfl

/-! ## The received word of a block -/

theorem blkRow_eq_received (s : State) (b : Nat) : blkRow s b (blockTotal (capOf s) b) = received s b := rfl

@[simp] theorem length_received (s : State) (b : Nat) : (received s b).length = blockTotal (capOf s) b := by
  simp [received]

theorem getD_received (s : State) {b j : Nat} (hj : j < blockTotal (capOf s) b) :
    (received s b).getD j 0 = blkByte s b j := by
  simp [received, hj]

theorem received_setStage (n : BitVec 3) (s : State) (b : Nat) : received (setStage n s) b = received s b := rfl

/-- The bounds of a block that the record has: its word fits a row of `BLK`, its syndromes a row of `SYN`, its status
`BSTAT` (15_rom_tables.md R49). -/
theorem block_bounds {s : State} (h : LegalVersion s) {b : Nat} (hb : b < blockCount (capOf s)) :
    b < 128 ∧ blockTotal (capOf s) b ≤ 255 ∧ 2 * capacityOf s b ≤ 32 := by
  obtain ⟨-, count, -, bounds⟩ := capRecord_bounds (capOf_wf (validVersion_of_legal h))
  obtain ⟨-, -, total, capacity⟩ := bounds b hb
  exact ⟨hb.trans_le count, total, capacity⟩

/-! ## The syndromes of a block as stored -/

/-- The state with the syndromes of the block as received in its `SYN` row (45_reed_solomon.md R129). -/
def withSyndromes (s : State) (b : Nat) : State :=
  setSynFrom b 0 (syndromes s.params.raw (received s b) (capacityOf s b)) s

theorem withSyndromes_frame (s : State) (b : Nat) : withSyndromes s b = { s with syn := (withSyndromes s b).syn } :=
  (setSynFrom_spec b _ 0 s).1

theorem readSyn_withSyndromes (s : State) (b a : Nat) :
    readSyn (withSyndromes s b) a =
      if 32 * b ≤ a ∧ a < 32 * b + 2 * capacityOf s b then powerSum s.params.raw (received s b) (a - 32 * b)
      else readSyn s a := by
  rw [withSyndromes, (setSynFrom_spec b _ 0 s).2, length_syndromes, Nat.add_zero]
  by_cases row : 32 * b ≤ a ∧ a < 32 * b + 2 * capacityOf s b
  · rw [if_pos row, if_pos row, getD_syndromes s.params _ (by omega)]
  · rw [if_neg row, if_neg row]

theorem bstatOf_withSyndromes (s : State) (b b' : Nat) : bstatOf (withSyndromes s b) b' = bstatOf s b' := by
  rw [withSyndromes_frame]
  rfl

/-! ## The ends of the correction of a block -/

/-- The status of a block that was received as `r` and ends as the member `c`: CLEAN when it was one already, else FIXED
with the number of bytes changed (45_reed_solomon.md R134). -/
def correctedStatus (r c : List Byte) : Byte := if r = c then 0x01 else BitVec.ofNat 8 (3 + 8 * dist r c)

theorem bstatFixed_eq (n : Nat) : bstatFixed n = BitVec.ofNat 8 (3 + 8 * n) := by
  refine BitVec.eq_of_toNat_eq ?_
  rw [bstatFixed, BitVec.toNat_append, ← Nat.shiftLeft_add_eq_or_of_lt (BitVec.isLt _), Nat.shiftLeft_eq]
  simp only [BitVec.toNat_ofNat]
  omega

/-- The state `t` that the correction of block `b` leaves of `s`: the block holds `c` and has that status, its `SYN` row
the syndromes of the word as received, and nothing else changed; `BLK` itself stays when the word does
(45_reed_solomon.md R134). -/
structure BlockEnd (s : State) (b : Nat) (c : List Byte) (status : Byte) (t : State) : Prop where
  frame : t = { s with blk := t.blk, syn := t.syn, bstat := t.bstat }
  unchanged : c = received s b → t.blk = s.blk
  readBlk : ∀ a, readBlk t a =
    if 256 * b ≤ a ∧ a < 256 * b + blockTotal (capOf s) b then c.getD (a - 256 * b) 0 else readBlk s a
  readSyn : ∀ a, readSyn t a =
    if 32 * b ≤ a ∧ a < 32 * b + 2 * capacityOf s b then powerSum s.params.raw (received s b) (a - 32 * b)
    else readSyn s a
  bstatOf : ∀ b', bstatOf t b' = if b' = b then status else bstatOf s b'

/-- A block that ends as received: its syndromes and its status are all that is written. -/
theorem blockEnd_received (s : State) {b : Nat} (hb : b < 128) (status : Byte) :
    BlockEnd s b (received s b) status (setBstat b status (withSyndromes s b)) where
  frame := by
    rw [withSyndromes_frame]
    rfl
  unchanged _ := by
    rw [withSyndromes_frame]
    rfl
  readBlk a := by
    have same : readBlk (setBstat b status (withSyndromes s b)) a = readBlk s a := by
      rw [withSyndromes_frame]
      rfl
    rw [same]
    split
    · next row =>
      rw [getD_received s (by omega), blkByte, show 256 * b + (a - 256 * b) = a by omega]
    · rfl
  readSyn := readSyn_withSyndromes s b
  bstatOf b' := by simp only [bstatOf_setBstat, hb, and_true, bstatOf_withSyndromes]

/-- A block that is moved to another word. -/
theorem blockEnd_moved (s : State) {b : Nat} (hb : b < 128) {c : List Byte} (length : c.length = blockTotal (capOf s) b)
    (moved : c ≠ received s b) (status : Byte) :
    BlockEnd s b c status (setBstat b status (setBlkFrom b 0 c (withSyndromes s b))) where
  frame := by
    rw [(setBlkFrom_spec b c 0 _).1, withSyndromes_frame]
    rfl
  unchanged same := absurd same moved
  readBlk a := by
    refine ((setBlkFrom_spec b c 0 (withSyndromes s b)).2 a).trans ?_
    rw [length, Nat.add_zero, withSyndromes_frame]
    rfl
  readSyn a := by
    rw [(setBlkFrom_spec b c 0 _).1]
    exact readSyn_withSyndromes s b a
  bstatOf b' := by
    have same : bstatOf (setBlkFrom b 0 c (withSyndromes s b)) b' = bstatOf s b' := by
      rw [(setBlkFrom_spec b c 0 _).1]
      exact bstatOf_withSyndromes s b b'
    simp only [bstatOf_setBstat, hb, and_true, same]

/-- How the correction of block `b` may end, whatever the procedure finds (45_reed_solomon.md R134). -/
inductive CorrectionEnds (s : State) (b : Nat) : Flow → Prop where
  | corrected (c : List Byte) (t : State) (reach : WithinReach s b c)
      (done : BlockEnd s b c (correctedStatus (received s b) c) t) : CorrectionEnds s b (.goesOn t)
  | refused (t : State) (nonmember : ¬InCode s.params.raw (capacityOf s b) (received s b))
      (notFound : nearestMember s.params.raw (received s b) (capacityOf s b) = none)
      (done : BlockEnd s b (received s b) 0x06 t) :
      CorrectionEnds s b (.ended (recordFailure .blockUncorrectable b t))

/-- A member is within reach of itself. -/
theorem withinReach_received {s : State} {b : Nat} (member : InCode s.params.raw (capacityOf s b) (received s b)) :
    WithinReach s b (received s b) :=
  ⟨length_received s b, member, (dist_self _).trans_le (Nat.zero_le _)⟩

theorem correctionEnds_correctBlock (s : State) {b : Nat} (hb : b < 128) : CorrectionEnds s b (correctBlock b s) := by
  rcases correctBlock_cases b s with ⟨member, h⟩ | ⟨nonmember, c, found, h⟩ | ⟨nonmember, notFound, h⟩
  · have done := blockEnd_received s hb (correctedStatus (received s b) (received s b))
    rw [correctedStatus, if_pos rfl] at done
    refine h ▸ .corrected (received s b) _ (withinReach_received ((isMember_iff s.params _ _).1 member)) ?_
    rw [correctedStatus, if_pos rfl]
    exact done
  · obtain ⟨member, length⟩ := nearestMember_mem found
    have moved : c ≠ received s b := by
      rintro rfl
      exact absurd (member.symm.trans nonmember) (by decide)
    have done := blockEnd_moved s hb (length.trans (length_received s b)) moved (bstatFixed (dist (received s b) c))
    refine h ▸ .corrected c _
      ⟨length.trans (length_received s b), (isMember_iff s.params _ _).1 member, nearestMember_dist_le found⟩ ?_
    rw [correctedStatus, if_neg moved.symm, ← bstatFixed_eq]
    exact done
  · exact h ▸ .refused _ ((isMember_eq_false_iff s.params _ _).1 nonmember) notFound
      (blockEnd_received s hb bstatFailed)

/-- At most one member is within reach of a block (45_reed_solomon.md R132). -/
theorem withinReach_unique {s : State} (legal : LegalVersion s) {b : Nat} (hb : b < blockCount (capOf s))
    {c d : List Byte} (hc : WithinReach s b c) (hd : WithinReach s b d) : c = d := by
  obtain ⟨lengthc, memberc, nearc⟩ := hc
  obtain ⟨lengthd, memberd, neard⟩ := hd
  have bound := (block_bounds legal hb).2.1
  exact (codeMembersLieFarApart s.params (capacityOf s b) c d (lengthc.trans lengthd.symm) (lengthc.trans_le bound)
    memberc memberd).2 (received s b) ((length_received s b).trans lengthc.symm) nearc neard

/-! ## The words of the blocks after the correction of one -/

section
variable {s t : State} {b : Nat} {c : List Byte} {status : Byte} (done : BlockEnd s b c status t)
include done

theorem BlockEnd.capOf_eq : capOf t = capOf s := by
  rw [done.frame]
  rfl

theorem BlockEnd.params_eq : t.params = s.params := by rw [done.frame]

/-- Byte `j` of any block: only the codewords of block `b` are written (20_memory.md R57). -/
theorem BlockEnd.blkByte_eq (short : blockTotal (capOf s) b ≤ 256) (b' : Nat) {j : Nat} (hj : j < 256) :
    blkByte t b' j = if b' = b ∧ j < blockTotal (capOf s) b then c.getD j 0 else blkByte s b' j := by
  have place : (256 * b ≤ 256 * b' + j ∧ 256 * b' + j < 256 * b + blockTotal (capOf s) b) ↔
      b' = b ∧ j < blockTotal (capOf s) b := by omega
  rw [blkByte, done.readBlk]
  simp only [place]
  split
  · next here => rw [here.1, Nat.add_sub_cancel_left]
  · rfl

/-- Byte `i` of any row of `SYN`: only the syndromes of block `b` are written (20_memory.md R58). -/
theorem BlockEnd.synByte_eq (short : 2 * capacityOf s b ≤ 32) (b' : Nat) {i : Nat} (hi : i < 32) :
    synByte t b' i =
      if b' = b ∧ i < 2 * capacityOf s b then powerSum s.params.raw (received s b) i else synByte s b' i := by
  have place : (32 * b ≤ 32 * b' + i ∧ 32 * b' + i < 32 * b + 2 * capacityOf s b) ↔
      b' = b ∧ i < 2 * capacityOf s b := by omega
  rw [synByte, done.readSyn]
  simp only [place]
  split
  · next here => rw [here.1, Nat.add_sub_cancel_left]
  · rfl

/-- After the correction the received word of block `b` is what the block was corrected to. -/
theorem BlockEnd.received_self (short : blockTotal (capOf s) b ≤ 256) (length : c.length = blockTotal (capOf s) b) :
    received t b = c := by
  refine List.ext_getElem (by rw [length_received, done.capOf_eq, length]) fun j hj hc => ?_
  rw [length] at hc
  simp only [received, List.getElem_map, List.getElem_range]
  rw [done.blkByte_eq short b (by omega), if_pos ⟨rfl, hc⟩, List.getD_eq_getElem]

end

/-! ## SYND and RSCOR under a legal version and block operand -/

theorem exec_synd (b : Nat) (s : State) : exec (.synd b) s = .next (syndBody b s).state := rfl

theorem exec_rscor (b : Nat) (s : State) : exec (.rscor b) s = .next (rscorBody b s).state := rfl

section
variable {s : State} {b : Nat} (legal : LegalVersion s) (hb : b < blockCount (capOf s))
include legal hb

/-- SYND stores the syndromes and marks the block, which it leaves as received (45_reed_solomon.md R129). -/
theorem syndBody_of_legal :
    syndBody b s = .goesOn (setBstat b
      (if isMember s.params.raw (received s b) (capacityOf s b) then bstatClean else bstatDirty)
      (withSyndromes (setStage 5 s) b)) := by
  have params : (withSyndromes (setStage 5 s) b).params = s.params := by
    rw [withSyndromes_frame]
    rfl
  rw [syndBody, checkVersion_of_valid (validVersion_of_legal legal), checkBlock_of_lt hb, ← params]
  rfl

theorem rscorBody_of_legal : rscorBody b s = correctBlock b (setStage 5 s) := by
  rw [rscorBody, checkVersion_of_valid (validVersion_of_legal legal), checkBlock_of_lt hb]

/-- RSCOR is the correction of its block, which may end as `CorrectionEnds` lists. -/
theorem exec_rscor_ends :
    ∃ f, exec (.rscor b) s = .next f.state ∧ CorrectionEnds (setStage 5 s) b f :=
  ⟨_, by rw [exec_rscor, rscorBody_of_legal legal hb], correctionEnds_correctBlock _ (block_bounds legal hb).1⟩

end

/-! ## The obligations -/

/-- Settles O45: the stored syndromes are the power sums, and the block is a member when they all vanish. -/
theorem syndWritesSyndromesAndStatus : Obligations.SyndWritesSyndromesAndStatus := by
  intro s b legal hb
  have done := blockEnd_received (setStage 5 s) (block_bounds legal hb).1
    (if isMember s.params.raw (received s b) (capacityOf s b) then bstatClean else bstatDirty)
  have frame := done.frame
  rw [done.unchanged rfl] at frame
  refine ⟨_, by rw [exec_synd, syndBody_of_legal legal hb]; rfl, frame, done.readSyn, fun member => ?clean,
    fun nonmember => ?dirty, fun b' other => ?others⟩
  case clean =>
    rw [done.bstatOf b, if_pos rfl, if_pos ((isMember_iff s.params _ _).2 member)]
    rfl
  case dirty =>
    rw [done.bstatOf b, if_pos rfl, (isMember_eq_false_iff s.params _ _).2 nonmember]
    rfl
  case others => exact (done.bstatOf b').trans (if_neg other)

/-- Settles O46: the block is the one member within its reach, and its syndromes are zero. -/
theorem rscorLeavesAMemberUnchanged : Obligations.RscorLeavesAMemberUnchanged := by
  intro s b legal hb member
  obtain ⟨f, run, ends⟩ := exec_rscor_ends legal hb
  cases ends with
  | refused t nonmember => exact absurd member nonmember
  | corrected c t reach done =>
    obtain rfl : c = received (setStage 5 s) b :=
      withinReach_unique (s := setStage 5 s) legal hb reach (withinReach_received member)
    have frame := done.frame
    rw [done.unchanged rfl] at frame
    refine ⟨t, run, frame, fun a => ?syndromes, fun b' => ?status⟩
    case syndromes =>
      rw [done.readSyn a]
      split
      · next row => exact (member _ (Nat.sub_lt_left_of_lt_add row.1 row.2)).trans (if_pos row).symm
      · next row => exact (if_neg row).symm
    case status =>
      rw [done.bstatOf b', correctedStatus, if_pos rfl]
      rfl

/-- Settles O48: what the procedure answers is within reach, so that it has answered nothing. -/
theorem rscorRefusesABlockOutOfReach : Obligations.RscorRefusesABlockOutOfReach := by
  intro s b legal hb none
  obtain ⟨f, run, ends⟩ := exec_rscor_ends legal hb
  cases ends with
  | corrected c t reach => exact absurd reach (none c)
  | refused t _ _ done =>
    have frame := done.frame
    rw [done.unchanged rfl] at frame
    exact ⟨_, run, congrArg (recordFailure .blockUncorrectable b) frame, done.readSyn, done.bstatOf⟩

/-- Settles O49: either end of the correction is one of the statement's. -/
theorem rscorEndsInAMemberOrARefusal : Obligations.RscorEndsInAMemberOrARefusal := by
  intro s b legal hb
  have short : blockTotal (capOf (setStage 5 s)) b ≤ 256 := (block_bounds legal hb).2.1.trans (by decide)
  obtain ⟨f, run, ends⟩ := exec_rscor_ends legal hb
  refine ⟨f.state, run, ?_⟩
  cases ends with
  | corrected c t reach done =>
    have word : received t b = c := done.received_self short reach.1
    refine ⟨(congrArg State.stage done.frame :), .inl ⟨word ▸ reach, (congrArg State.err done.frame :),
      (congrArg State.errInfo done.frame :), ?_⟩⟩
    rw [Flow.state_goesOn, done.bstatOf b, if_pos rfl, word, correctedStatus]
    simp only [eq_comm (a := c)]
    rfl
  | refused t _ _ done =>
    have word : received t b = received s b := done.received_self short (length_received _ b)
    exact ⟨(congrArg State.stage done.frame :), .inr ⟨word, rfl, rfl, (done.bstatOf b).trans (if_pos rfl)⟩⟩

end Sys2Proof.Proofs
end

section
/-!
SUPPORT AND PROOFS. What the correction of the blocks in order leaves after some of them, whatever the reference procedure
answers, how RSALL may end, and the statement about RSALL that rests on no completeness of the procedure
(45_reed_solomon.md R139).
-/

namespace Sys2Proof.Proofs

open Sys2Proof.Machine Sys2Proof.Claims

/-! ## The blocks in order -/

/-- The state `t` that the correction of the first `n` blocks leaves of `s`: each of them holds a member within its reach
and its status, its `SYN` row the syndromes of the word as received, and nothing else changed (45_reed_solomon.md R139). -/
structure BlocksEnd (s : State) (n : Nat) (t : State) : Prop where
  frame : t = { s with blk := t.blk, syn := t.syn, bstat := t.bstat }
  reach : ∀ b < n, WithinReach s b (received t b)
  rest : ∀ b < n, ∀ j, blockTotal (capOf s) b ≤ j → j < 256 → blkByte t b j = blkByte s b j
  readBlk : ∀ a, 256 * n ≤ a → readBlk t a = readBlk s a
  synByte : ∀ b < n, ∀ i < 32, synByte t b i =
    if i < 2 * capacityOf s b then powerSum s.params.raw (received s b) i else synByte s b i
  readSyn : ∀ a, 32 * n ≤ a → readSyn t a = readSyn s a
  bstatOf : ∀ b, bstatOf t b = if b < n then correctedStatus (received s b) (received t b) else bstatOf s b

theorem blocksEnd_zero (s : State) : BlocksEnd s 0 s where
  frame := rfl
  reach _ hb := absurd hb (Nat.not_lt_zero _)
  rest _ hb := absurd hb (Nat.not_lt_zero _)
  readBlk _ _ := rfl
  synByte _ hb := absurd hb (Nat.not_lt_zero _)
  readSyn _ _ := rfl
  bstatOf _ := rfl

section
variable {s t u : State} {n : Nat} (done : BlocksEnd s n t)
include done

theorem BlocksEnd.capOf_eq : capOf t = capOf s := by
  rw [done.frame]
  rfl

theorem BlocksEnd.params_eq : t.params = s.params := by rw [done.frame]

theorem BlocksEnd.capacityOf_eq (b : Nat) : capacityOf t b = capacityOf s b := by rw [capacityOf, done.capOf_eq, capacityOf]

/-- A block not yet in turn is as received. -/
theorem BlocksEnd.received_of_le {b : Nat} (hb : n ≤ b) : received t b = received s b := by
  rw [received, received, done.capOf_eq]
  refine List.map_congr_left fun j _ => ?_
  exact done.readBlk _ (by omega)

theorem BlocksEnd.withinReach_iff {b : Nat} (hb : n ≤ b) (c : List Byte) : WithinReach t b c ↔ WithinReach s b c := by
  rw [WithinReach, WithinReach, done.received_of_le hb, done.capOf_eq, done.params_eq, done.capacityOf_eq]

end

section
variable {s t u : State} {n : Nat} {c : List Byte} {status : Byte}

/-- The correction of one block keeps the words of the others. -/
theorem BlockEnd.received_other (done : BlockEnd t n c status u) (short : blockTotal (capOf t) n ≤ 256) {b : Nat}
    (other : b ≠ n) (shortb : blockTotal (capOf t) b ≤ 256) : received u b = received t b := by
  rw [received, received, done.capOf_eq]
  refine List.map_congr_left fun j hj => ?_
  rw [done.blkByte_eq short b ((List.mem_range.1 hj).trans_le shortb), if_neg fun here => other here.1]

/-- One more block is corrected (45_reed_solomon.md R139). -/
theorem BlocksEnd.succ (legal : LegalVersion s) (hn : n < blockCount (capOf s)) (before : BlocksEnd s n t)
    (reach : WithinReach t n c) (done : BlockEnd t n c (correctedStatus (received t n) c) u) : BlocksEnd s (n + 1) u := by
  have short {b : Nat} (hb : b ≤ n) : blockTotal (capOf t) b ≤ 256 ∧ 2 * capacityOf t b ≤ 32 := by
    obtain ⟨-, total, capacity⟩ := block_bounds legal (hb.trans_lt hn)
    rw [before.capOf_eq, before.capacityOf_eq]
    exact ⟨total.trans (by decide), capacity⟩
  have here : received u n = c := done.received_self (short le_rfl).1 reach.1
  have others {b : Nat} (hb : b < n) : received u b = received t b :=
    done.received_other (short le_rfl).1 hb.ne (short hb.le).1
  refine ⟨?frame, fun b hb => ?reach, fun b hb j outside hj => ?rest, fun a ha => ?readBlk, fun b hb i hi => ?synByte,
    fun a ha => ?readSyn, fun b => ?bstatOf⟩
  case frame =>
    rw [done.frame, before.frame]
  case reach =>
    rcases Nat.lt_succ_iff_lt_or_eq.1 hb with earlier | rfl
    · exact others earlier ▸ before.reach b earlier
    · exact here ▸ (before.withinReach_iff le_rfl c).1 reach
  case rest =>
    rw [done.blkByte_eq (short le_rfl).1 b hj, before.capOf_eq, if_neg (by rintro ⟨rfl, inside⟩; omega)]
    rcases Nat.lt_succ_iff_lt_or_eq.1 hb with earlier | rfl
    · exact before.rest b earlier j outside hj
    · exact before.readBlk _ (by omega)
  case readBlk =>
    have row := (short le_rfl).1
    rw [done.readBlk, if_neg (by omega), before.readBlk a (by omega)]
  case synByte =>
    rw [done.synByte_eq (short le_rfl).2 b hi]
    rcases Nat.lt_succ_iff_lt_or_eq.1 hb with earlier | rfl
    · rw [if_neg fun h => earlier.ne h.1, before.synByte b earlier i hi]
    · simp only [true_and, before.capacityOf_eq, before.params_eq, before.received_of_le le_rfl]
      rw [Machine.synByte, before.readSyn _ (by omega), Machine.synByte]
  case readSyn =>
    have row := (short le_rfl).2
    rw [done.readSyn, if_neg (by omega), before.readSyn a (by omega)]
  case bstatOf =>
    rw [done.bstatOf]
    rcases Nat.lt_trichotomy b n with earlier | rfl | later
    · rw [if_neg earlier.ne, before.bstatOf, if_pos earlier, if_pos (by omega), others earlier]
    · rw [if_pos rfl, if_pos (by omega), here, before.received_of_le le_rfl]
    · rw [if_neg later.ne', before.bstatOf, if_neg (by omega), if_neg (by omega)]

end

/-! ## The ends of the loop -/

theorem correctBlocks_append (l l' : List Nat) (s : State) :
    correctBlocks (l ++ l') s = (correctBlocks l s).andThen (correctBlocks l') := by
  induction l generalizing s with
  | nil => rfl
  | cons b l ih =>
    rw [List.cons_append, correctBlocks, correctBlocks, show correctBlocks (l ++ l') = _ from funext ih, andThen_assoc]

theorem correctBlocks_singleton (b : Nat) (s : State) : correctBlocks [b] s = correctBlock b s := by
  rw [correctBlocks]
  cases correctBlock b s <;> rfl

/-- How the correction of the first `n` blocks may end: all are corrected, or the first that cannot be ends the command
(45_reed_solomon.md R139). -/
inductive CorrectionsEnd (s : State) (n : Nat) : Flow → Prop where
  | corrected (t : State) (done : BlocksEnd s n t) : CorrectionsEnd s n (.goesOn t)
  | stopped (b : Nat) (t u : State) (hb : b < n) (before : BlocksEnd s b t)
      (nonmember : ¬InCode s.params.raw (capacityOf s b) (received s b))
      (notFound : nearestMember s.params.raw (received s b) (capacityOf s b) = none)
      (done : BlockEnd t b (received t b) 0x06 u) :
      CorrectionsEnd s n (.ended (recordFailure .blockUncorrectable b u))

theorem correctionsEnd_correctBlocks {s : State} (legal : LegalVersion s) {n : Nat} (hn : n ≤ blockCount (capOf s)) :
    CorrectionsEnd s n (correctBlocks (List.range n) s) := by
  induction n with
  | zero => exact .corrected s (blocksEnd_zero s)
  | succ n ih =>
    rw [List.range_succ, correctBlocks_append]
    have before := ih (Nat.le_of_succ_le hn)
    generalize correctBlocks (List.range n) s = f at before ⊢
    cases before with
    | stopped b t u hb before nonmember notFound done =>
      exact .stopped b t u (Nat.lt_succ_of_lt hb) before nonmember notFound done
    | corrected t before =>
      rw [Flow.goesOn_andThen, correctBlocks_singleton]
      have hb : n < 128 := (block_bounds legal hn).1
      have last := correctionEnds_correctBlock t hb
      generalize correctBlock n t = f at last ⊢
      cases last with
      | corrected c u reach done => exact .corrected u (before.succ legal hn reach done)
      | refused u nonmember notFound done =>
        rw [before.received_of_le le_rfl, before.params_eq, before.capacityOf_eq] at nonmember notFound
        exact .stopped n t u (Nat.lt_succ_self n) before nonmember notFound done

/-! ## RSALL under a legal version -/

theorem rsallBody_of_legal {s : State} (legal : LegalVersion s) :
    rsallBody s = correctBlocks (List.range (blockCount (capOf s))) (setStage 5 s) := by
  rw [rsallBody, checkVersion_of_valid (validVersion_of_legal legal)]

/-- RSALL is the correction of all the blocks, which may end as `CorrectionsEnd` lists. -/
theorem exec_rsall_ends {s : State} (legal : LegalVersion s) :
    ∃ f, exec .rsall s = .next f.state ∧ CorrectionsEnd (setStage 5 s) (blockCount (capOf s)) f :=
  ⟨_, by rw [exec_rsall, rsallBody_of_legal legal], correctionsEnd_correctBlocks (s := setStage 5 s) legal le_rfl⟩

/-! ## The block that stops the loop -/

section
variable {s t u : State} {b : Nat} (legal : LegalVersion s) (hb : b < blockCount (capOf s)) (before : BlocksEnd s b t)
  (done : BlockEnd t b (received t b) 0x06 u)
include legal hb before done

/-- The block that stops the loop and the blocks after it are as received, those before it as corrected. -/
theorem received_stopped {b' : Nat} (hb' : b' < blockCount (capOf s)) :
    received u b' = if b' < b then received t b' else received s b' := by
  have short {b' : Nat} (hb' : b' < blockCount (capOf s)) : blockTotal (capOf t) b' ≤ 256 := by
    rw [before.capOf_eq]
    exact (block_bounds legal hb').2.1.trans (by decide)
  have kept : received u b' = received t b' := by
    by_cases here : b' = b
    · rw [here, done.received_self (short hb) (length_received t b)]
    · exact done.received_other (short hb) here (short hb')
  rw [kept]
  split
  · rfl
  · next after => exact before.received_of_le (Nat.not_lt.1 after)

/-- The rows of `SYN` up to that of the block that stops the loop hold the syndromes of the words as received. -/
theorem synByte_stopped {b' i : Nat} (hb' : b' ≤ b) (hi : i < 32) :
    synByte u b' i = if i < 2 * capacityOf s b' then powerSum s.params.raw (received s b') i else synByte s b' i := by
  have short : 2 * capacityOf t b ≤ 32 := before.capacityOf_eq b ▸ (block_bounds legal hb).2.2
  rw [done.synByte_eq short b' hi]
  rcases Nat.lt_or_eq_of_le hb' with earlier | rfl
  · rw [if_neg fun here => earlier.ne here.1, before.synByte b' earlier i hi]
  · simp only [true_and, before.capacityOf_eq, before.params_eq, before.received_of_le le_rfl]
    rw [synByte, before.readSyn _ (by omega), synByte]

theorem readSyn_stopped {a : Nat} (ha : 32 * (b + 1) ≤ a) : readSyn u a = readSyn s a := by
  have short : 2 * capacityOf t b ≤ 32 := before.capacityOf_eq b ▸ (block_bounds legal hb).2.2
  rw [done.readSyn, if_neg (by omega), before.readSyn a (by omega)]

omit legal hb in
/-- The loop leaves `BLK` as it was when the stopping block came in turn. -/
theorem stopped_frame :
    u = { s with blk := t.blk, syn := u.syn, bstat := u.bstat } := by
  have frame := done.frame
  rw [done.unchanged rfl, before.frame] at frame
  exact frame

omit legal hb in
theorem readBlk_stopped (a : Nat) : readBlk u a = readBlk t a := by
  rw [stopped_frame before done, before.frame]
  rfl

omit legal hb in
theorem bstatOf_stopped (b' : Nat) :
    bstatOf u b' = if b' < b then correctedStatus (received s b') (received t b') else if b' = b then 0x06
      else bstatOf s b' := by
  rw [done.bstatOf, before.bstatOf]
  by_cases here : b' = b
  · simp [here]
  · simp only [here, if_false]

end

/-! ## The obligation -/

/-- Settles O52: the loop corrects every block, or stops at the first block that it cannot correct. -/
theorem rsallEndsInMembersOrARefusal : Obligations.RsallEndsInMembersOrARefusal := by
  intro s legal
  obtain ⟨f, run, ends⟩ := exec_rsall_ends legal
  refine ⟨f.state, run, ?_⟩
  cases ends with
  | corrected t done =>
    exact ⟨(congrArg State.stage done.frame :), .inl ⟨done.reach, (congrArg State.err done.frame :),
      (congrArg State.errInfo done.frame :)⟩⟩
  | stopped b t u hb before _ _ done =>
    have stage : u.stage = 5 := by rw [done.frame, before.frame]; rfl
    have words {b' : Nat} (hb' : b' < blockCount (capOf s)) :
        received (recordFailure .blockUncorrectable b u) b' = if b' < b then received t b' else received s b' :=
      received_stopped (s := setStage 5 s) legal hb before done hb'
    refine ⟨stage, .inr ⟨b, hb, rfl, rfl, (done.bstatOf b).trans (if_pos rfl), fun b' earlier => ?_,
      fun b' later hb' => ?_⟩⟩
    · rw [Flow.state_ended, words (earlier.trans hb), if_pos earlier]
      exact before.reach b' earlier
    · rw [Flow.state_ended, words hb', if_neg (Nat.not_lt.2 later)]

end Sys2Proof.Proofs
end

section
/-!
SUPPORT. The procedure of Berlekamp and Massey over a field: polynomials that generate a sequence as recurrences, the
loop invariant of the procedure and its three turns, and that the procedure stays as short as any recurrence
(45_reed_solomon.md R136).
-/

namespace Sys2Proof.Proofs

open Polynomial

section
variable {K : Type} [Field K]

/-! ## Recurrences -/

/-- `F` is a recurrence of length `L` for the first `n` terms of the sequence of coefficients of `S`: its constant term
is 1, its degree at most `L`, and from index `L` on the terms below `n` follow from the ones before. -/
structure Generates (S : K[X]) (n : Nat) (F : K[X]) (L : Nat) : Prop where
  const : F.coeff 0 = 1
  degree : F.natDegree ≤ L
  vanish : ∀ i, L ≤ i → i < n → (S * F).coeff i = 0

/-- The coefficient of a product at `q` when the first factor vanishes just below `q`, as far as the second reaches. -/
theorem coeff_mul_of_vanish {Q F : K[X]} {L q : Nat} (degree : F.natDegree ≤ L)
    (vanish : ∀ i, q ≤ i + L → i < q → Q.coeff i = 0) : (Q * F).coeff q = Q.coeff q * F.coeff 0 := by
  rw [coeff_mul, Finset.sum_eq_single (q, 0)]
  · rintro ⟨i, j⟩ hij other
    rw [Finset.HasAntidiagonal.mem_antidiagonal] at hij
    dsimp only at hij ⊢
    by_cases reach : j ≤ L
    · have below : i < q := by
        refine lt_of_le_of_ne (by omega) fun same => other ?_
        rw [Prod.mk.injEq]
        omega
      rw [vanish i (by omega) below, zero_mul]
    · rw [coeff_eq_zero_of_natDegree_lt (degree.trans_lt (not_le.1 reach)), mul_zero]
  · exact fun outside => absurd (Finset.HasAntidiagonal.mem_antidiagonal.2 (Nat.add_zero q)) outside

/-- Massey's bound: where a recurrence first fails, a recurrence that does not is long. -/
theorem lt_add_length_of_fails {S F G : K[X]} {L M q : Nat} (hF : Generates S q F L) (fails : (S * F).coeff q ≠ 0)
    (hG : Generates S (q + 1) G M) : q < L + M := by
  by_contra short
  refine fails ?_
  calc (S * F).coeff q = (S * F * G).coeff q := by
        rw [coeff_mul_of_vanish hG.degree fun i hi hiq => hF.vanish i (by omega) hiq, hG.const, mul_one]
    _ = (S * G * F).coeff q := by rw [mul_right_comm]
    _ = 0 := by
        rw [coeff_mul_of_vanish hF.degree fun i hi hiq => hG.vanish i (by omega) (by omega),
          hG.vanish q (by omega) (by omega), zero_mul]

theorem Generates.mono {S F : K[X]} {n n' L : Nat} (h : Generates S n F L) (hn : n' ≤ n) : Generates S n' F L :=
  ⟨h.const, h.degree, fun i hi hin => h.vanish i hi (hin.trans_le hn)⟩

/-! ## The loop invariant -/

/-- What the procedure holds before the turn of index `q`: `F` of length `L` generates the terms below `q`; `X ^ m * P`
is the recurrence before the last change of length, moved so that it would fail with `g` at `q` (before the first change
there is none), and it leaves room for `F` at the length `L`. -/
structure HoldsRecurrence (S : K[X]) (q : Nat) (F P : K[X]) (L m : Nat) (g : K) : Prop where
  generates : Generates S q F L
  length_le : L ≤ q
  moved : 0 < m
  ne_zero : g ≠ 0
  prevDegree : (X ^ m * P).natDegree + L ≤ q + 1
  prevVanish : ∀ i, q < i + L → i < q → (S * (X ^ m * P)).coeff i = 0
  prevFails : 0 < L → (S * (X ^ m * P)).coeff q = g

theorem holdsRecurrence_zero (S : K[X]) : HoldsRecurrence S 0 1 1 0 1 1 where
  generates := ⟨coeff_one_zero, natDegree_one.le, fun i _ hi => absurd hi i.not_lt_zero⟩
  length_le := le_rfl
  moved := Nat.one_pos
  ne_zero := one_ne_zero
  prevDegree := by simp
  prevVanish := fun i _ hi => absurd hi i.not_lt_zero
  prevFails := fun h => absurd h (lt_irrefl 0)

/-- The recurrence corrected by the previous one (45_reed_solomon.md R136). -/
noncomputable def corrected (F P : K[X]) (m : Nat) (f : K) : K[X] := F - C f * (X ^ m * P)

section
variable {S F P : K[X]} {q L m : Nat} {g : K} (h : HoldsRecurrence S q F P L m g)
include h

/-- The previous recurrence moved by one more place. -/
theorem HoldsRecurrence.prev_succ :
    (X ^ (m + 1) * P).natDegree + L ≤ q + 1 + 1 ∧
    (∀ i, q + 1 < i + L → i < q + 1 → (S * (X ^ (m + 1) * P)).coeff i = 0) ∧
    (0 < L → (S * (X ^ (m + 1) * P)).coeff (q + 1) = g) := by
  have move : X ^ (m + 1) * P = X * (X ^ m * P) := by rw [pow_succ']; ring
  have coeff_move (i : Nat) : (S * (X ^ (m + 1) * P)).coeff (i + 1) = (S * (X ^ m * P)).coeff i := by
    rw [move, mul_left_comm, coeff_X_mul]
  refine ⟨?_, fun i far below => ?_, fun long => (coeff_move q).trans (h.prevFails long)⟩
  · have degree : (X ^ (m + 1) * P).natDegree ≤ 1 + (X ^ m * P).natDegree :=
      move ▸ natDegree_mul_le.trans (Nat.add_le_add_right natDegree_X_le _)
    have prev := h.prevDegree
    omega
  · have bound := h.length_le
    obtain ⟨i, rfl⟩ : ∃ i', i = i' + 1 := ⟨i - 1, by omega⟩
    exact (coeff_move i).trans (h.prevVanish i (by omega) (by omega))

/-- A term that follows from the ones before (45_reed_solomon.md R136). -/
theorem HoldsRecurrence.keep (follows : (S * F).coeff q = 0) : HoldsRecurrence S (q + 1) F P L (m + 1) g := by
  obtain ⟨prevDegree, prevVanish, prevFails⟩ := h.prev_succ
  refine ⟨⟨h.generates.const, h.generates.degree, fun i hi hiq => ?_⟩, Nat.le_succ_of_le h.length_le, m.succ_pos,
    h.ne_zero, prevDegree, prevVanish, prevFails⟩
  rcases Nat.lt_succ_iff_lt_or_eq.1 hiq with earlier | rfl
  · exact h.generates.vanish i hi earlier
  · exact follows

/-- The corrected recurrence generates one more term at a length that has room for both parts. -/
theorem HoldsRecurrence.generates_corrected {M : Nat} (longF : L ≤ M) (longP : q + 1 ≤ L + M) :
    Generates S (q + 1) (corrected F P m ((S * F).coeff q / g)) M := by
  have expand (i : Nat) : (S * corrected F P m ((S * F).coeff q / g)).coeff i =
      (S * F).coeff i - (S * F).coeff q / g * (S * (X ^ m * P)).coeff i := by
    rw [corrected, mul_sub, coeff_sub, mul_left_comm, coeff_C_mul]
  refine ⟨?const, ?degree, fun i hi hiq => ?vanish⟩
  case const =>
    have zero : (X ^ m * P).coeff 0 = 0 := by
      rw [coeff_X_pow_mul', if_neg (Nat.not_le.2 h.moved)]
    rw [corrected, coeff_sub, coeff_C_mul, zero, mul_zero, sub_zero, h.generates.const]
  case degree =>
    have degree := h.generates.degree
    have prev := h.prevDegree
    refine (natDegree_sub_le _ _).trans (max_le (by omega) ?_)
    exact (natDegree_C_mul_le _ _).trans (by omega)
  case vanish =>
    rw [expand]
    rcases Nat.lt_succ_iff_lt_or_eq.1 hiq with earlier | rfl
    · rw [h.generates.vanish i (by omega) earlier, h.prevVanish i (by omega) earlier, mul_zero, sub_zero]
    · rw [h.prevFails (by omega), div_mul_cancel₀ _ h.ne_zero, sub_self]

/-- A correction that fits the length (45_reed_solomon.md R136). -/
theorem HoldsRecurrence.adjust (fits : q < 2 * L) :
    HoldsRecurrence S (q + 1) (corrected F P m ((S * F).coeff q / g)) P L (m + 1) g := by
  obtain ⟨prevDegree, prevVanish, prevFails⟩ := h.prev_succ
  exact ⟨h.generates_corrected le_rfl (by omega), Nat.le_succ_of_le h.length_le, m.succ_pos, h.ne_zero, prevDegree,
    prevVanish, prevFails⟩

/-- A correction that lengthens the recurrence, which then becomes the previous one (45_reed_solomon.md R136). -/
theorem HoldsRecurrence.lengthen (fails : (S * F).coeff q ≠ 0) (outgrows : 2 * L ≤ q) :
    HoldsRecurrence S (q + 1) (corrected F P m ((S * F).coeff q / g)) F (q + 1 - L) 1 ((S * F).coeff q) := by
  have coeff_move (i : Nat) : (S * (X ^ 1 * F)).coeff (i + 1) = (S * F).coeff i := by
    rw [pow_one, mul_left_comm, coeff_X_mul]
  have bound := h.length_le
  refine ⟨h.generates_corrected (by omega) (by omega), Nat.sub_le _ _, Nat.one_pos, fails, ?_, fun i far below => ?_,
    fun _ => coeff_move q⟩
  · have degree : (X ^ 1 * F).natDegree ≤ 1 + L :=
      natDegree_mul_le.trans (Nat.add_le_add (natDegree_X_pow_le 1) h.generates.degree)
    omega
  · obtain ⟨i, rfl⟩ : ∃ i', i = i' + 1 := ⟨i - 1, by omega⟩
    exact (coeff_move i).trans (h.generates.vanish i (by omega) (by omega))

end

end

end Sys2Proof.Proofs
end

section
/-!
SUPPORT. A sequence of power sums over a field: its recurrences vanish at the inverses of the places, the shortest one is
the product of the linear factors of the places, and Forney's formula gives the values back (45_reed_solomon.md R136,
R137).
-/

namespace Sys2Proof.Proofs

open Polynomial

section
variable {K : Type} [Field K]

/-- The locator of the places `x v`, `v` in `E`: it vanishes at their inverses (45_reed_solomon.md R136). -/
noncomputable def placeLocator (E : Finset Nat) (x : Nat → K) : K[X] := ∏ v ∈ E, (1 - C (x v) * X)

theorem natDegree_factor_le (a : K) : (1 - C a * X).natDegree ≤ 1 :=
  (natDegree_sub_le _ _).trans (max_le (natDegree_one.trans_le zero_le_one) ((natDegree_C_mul_le a X).trans natDegree_X_le))

theorem coeff_zero_placeLocator (E : Finset Nat) (x : Nat → K) : (placeLocator E x).coeff 0 = 1 := by
  rw [placeLocator, coeff_zero_prod]
  exact Finset.prod_eq_one fun v _ => by simp

theorem natDegree_placeLocator_le (E : Finset Nat) (x : Nat → K) : (placeLocator E x).natDegree ≤ E.card := by
  refine (natDegree_prod_le E _).trans ?_
  rw [Finset.card_eq_sum_ones]
  exact Finset.sum_le_sum fun v _ => natDegree_factor_le (x v)

theorem eval_placeLocator (E : Finset Nat) (x : Nat → K) (z : K) :
    (placeLocator E x).eval z = ∏ v ∈ E, (1 - x v * z) := by
  simp [placeLocator, eval_prod]

/-- At the inverse of another place the locator does not vanish. -/
theorem eval_placeLocator_ne_zero {E : Finset Nat} {x : Nat → K} {a : K} (ha : a ≠ 0) (others : ∀ u ∈ E, x u ≠ a) :
    (placeLocator E x).eval a⁻¹ ≠ 0 := by
  rw [eval_placeLocator, Finset.prod_ne_zero_iff]
  intro u hu zero
  refine others u hu ?_
  rw [← mul_one a, sub_eq_zero.1 zero, mul_left_comm, mul_inv_cancel₀ ha, mul_one]

theorem placeLocator_erase (E : Finset Nat) (x : Nat → K) {v : Nat} (hv : v ∈ E) :
    placeLocator E x = (1 - C (x v) * X) * placeLocator (E.erase v) x :=
  (Finset.mul_prod_erase E _ hv).symm

/-- The terms of `S` below `n` are the sums of the `e v` times the powers of the places `x v`, which are different and
not zero. -/
structure PowerSums (S : K[X]) (n : Nat) (E : Finset Nat) (x e : Nat → K) : Prop where
  coeff : ∀ i < n, S.coeff i = ∑ v ∈ E, e v * x v ^ i
  place : ∀ v ∈ E, x v ≠ 0
  value : ∀ v ∈ E, e v ≠ 0
  distinct : Set.InjOn x E

section
variable {S : K[X]} {n : Nat} {E : Finset Nat} {x e : Nat → K} (h : PowerSums S n E x e)
include h

/-! ## Recurrences of power sums -/

/-- A recurrence acts on each power by its value at the inverse of the place. -/
theorem PowerSums.coeff_mul {F : K[X]} {i : Nat} (degree : F.natDegree ≤ i) (hi : i < n) :
    (S * F).coeff i = ∑ v ∈ E, e v * x v ^ i * F.eval (x v)⁻¹ := by
  have power : ∀ v ∈ E, ∀ b ∈ Finset.range (i + 1), e v * x v ^ i * (F.coeff b * (x v)⁻¹ ^ b) =
      F.coeff b * (e v * x v ^ (i - b)) := by
    intro v hv b hb
    rw [pow_sub₀ _ (h.place v hv) (Nat.lt_succ_iff.1 (Finset.mem_range.1 hb)), inv_pow]
    ring
  rw [mul_comm, Polynomial.coeff_mul, Finset.Nat.sum_antidiagonal_eq_sum_range_succ fun b a => F.coeff b * S.coeff a]
  calc ∑ b ∈ Finset.range (i + 1), F.coeff b * S.coeff (i - b)
      = ∑ b ∈ Finset.range (i + 1), ∑ v ∈ E, F.coeff b * (e v * x v ^ (i - b)) :=
        Finset.sum_congr rfl fun b _ => by rw [h.coeff _ ((Nat.sub_le i b).trans_lt hi), Finset.mul_sum]
    _ = ∑ v ∈ E, ∑ b ∈ Finset.range (i + 1), e v * x v ^ i * (F.coeff b * (x v)⁻¹ ^ b) := by
        rw [Finset.sum_comm]
        exact Finset.sum_congr rfl fun v hv => Finset.sum_congr rfl fun b hb => (power v hv b hb).symm
    _ = ∑ v ∈ E, e v * x v ^ i * F.eval (x v)⁻¹ :=
        Finset.sum_congr rfl fun v _ => by rw [eval_eq_sum_range' (Nat.lt_succ_of_le degree), Finset.mul_sum]

theorem PowerSums.eval_placeLocator_eq_zero {v : Nat} (hv : v ∈ E) : (placeLocator E x).eval (x v)⁻¹ = 0 := by
  rw [eval_placeLocator]
  exact Finset.prod_eq_zero hv (by rw [mul_inv_cancel₀ (h.place v hv), sub_self])

/-- The locator of the places is a recurrence as long as there are places. -/
theorem PowerSums.generates_placeLocator : Generates S n (placeLocator E x) E.card where
  const := coeff_zero_placeLocator E x
  degree := natDegree_placeLocator_le E x
  vanish i hi hin := by
    rw [h.coeff_mul ((natDegree_placeLocator_le E x).trans hi) hin]
    exact Finset.sum_eq_zero fun v hv => by rw [h.eval_placeLocator_eq_zero hv, mul_zero]

/-- A recurrence that generates as many terms beyond its length as there are places vanishes at their inverses. -/
theorem PowerSums.eval_eq_zero {F : K[X]} {L : Nat} (hF : Generates S n F L) (room : L + E.card ≤ n) {v : Nat}
    (hv : v ∈ E) : F.eval (x v)⁻¹ = 0 := by
  have units : ∀ u ∈ E, ∀ v ∈ E, u ≠ v → IsUnit (x u - x v) := fun u hu v hv other =>
    isUnit_iff_ne_zero.2 (sub_ne_zero.2 fun same => other (h.distinct hu hv same))
  have sums : ∀ i < E.card, ∑ v ∈ E, e v * x v ^ L * F.eval (x v)⁻¹ * x v ^ i = 0 := by
    intro i hi
    have term := h.coeff_mul (i := L + i) (hF.degree.trans (Nat.le_add_right L i)) (by omega)
    rw [hF.vanish (L + i) (Nat.le_add_right L i) (by omega)] at term
    rw [term]
    exact Finset.sum_congr rfl fun v _ => by rw [pow_add]; ring
  have zero := eq_zero_of_power_sums_eq_zero (d := fun v => e v * x v ^ L * F.eval (x v)⁻¹) units sums hv
  exact (mul_eq_zero.1 zero).resolve_left (mul_ne_zero (h.value v hv) (pow_ne_zero L (h.place v hv)))

/-- A recurrence no longer than the number of places is their locator (45_reed_solomon.md R136). -/
theorem PowerSums.eq_placeLocator {F : K[X]} {L : Nat} (hF : Generates S n F L) (short : L ≤ E.card)
    (room : 2 * E.card ≤ n) : F = placeLocator E x := by
  classical
  have inverse : Set.InjOn (fun v => (x v)⁻¹) E := fun u hu v hv same => h.distinct hu hv (inv_injective same)
  have fresh : (0 : K) ∉ E.image fun v => (x v)⁻¹ := by
    rw [Finset.mem_image]
    rintro ⟨v, hv, zero⟩
    exact h.place v hv (inv_eq_zero.1 zero)
  have points : (insert 0 (E.image fun v => (x v)⁻¹)).card = E.card + 1 := by
    rw [Finset.card_insert_of_notMem fresh, Finset.card_image_of_injOn inverse]
  have bound {G : K[X]} (degree : G.natDegree ≤ E.card) :
      G.degree < ((insert 0 (E.image fun v => (x v)⁻¹)).card : WithBot Nat) := by
    rw [points]
    exact degree_le_natDegree.trans_lt (by exact_mod_cast Nat.lt_succ_of_le degree)
  refine eq_of_degrees_lt_of_eval_finset_eq _ (bound (hF.degree.trans short))
    (bound (natDegree_placeLocator_le E x)) fun z hz => ?_
  rcases Finset.mem_insert.1 hz with rfl | hz
  · rw [← coeff_zero_eq_eval_zero, ← coeff_zero_eq_eval_zero, hF.const, coeff_zero_placeLocator]
  · obtain ⟨v, hv, rfl⟩ := Finset.mem_image.1 hz
    rw [h.eval_eq_zero hF (by omega) hv, h.eval_placeLocator_eq_zero hv]

theorem PowerSums.natDegree_placeLocator : (placeLocator E x).natDegree = E.card := by
  have linear : ∀ v ∈ E, (1 - C (x v) * X).natDegree = 1 := by
    intro v hv
    have form : 1 - C (x v) * X = C (-x v) * X + C 1 := by rw [C_neg, C_1]; ring
    rw [form, natDegree_linear (neg_ne_zero.2 (h.place v hv))]
  have nonzero : ∀ v ∈ E, 1 - C (x v) * X ≠ 0 := by
    intro v hv zero
    have degree := linear v hv
    rw [zero, natDegree_zero] at degree
    cases degree
  rw [placeLocator, natDegree_prod _ _ nonzero, Finset.sum_congr rfl linear, Finset.card_eq_sum_ones]

/-! ## Forney's formula -/

theorem PowerSums.eval_erase_ne_zero {v : Nat} (hv : v ∈ E) : (placeLocator (E.erase v) x).eval (x v)⁻¹ ≠ 0 := by
  refine eval_placeLocator_ne_zero (h.place v hv) fun u hu same => ?_
  obtain ⟨other, hu⟩ := Finset.mem_erase.1 hu
  exact other (h.distinct hu hv same)

omit h in
/-- The sum of the values times the locators of the other places (45_reed_solomon.md R137, step 3). -/
noncomputable def placeEvaluator (E : Finset Nat) (x e : Nat → K) : K[X] :=
  ∑ v ∈ E, C (e v) * placeLocator (E.erase v) x

omit h in
theorem natDegree_placeEvaluator_le (E : Finset Nat) (x e : Nat → K) :
    (placeEvaluator E x e).natDegree ≤ E.card - 1 := by
  refine natDegree_sum_le_of_forall_le E _ fun v hv => (natDegree_C_mul_le _ _).trans ?_
  exact (natDegree_placeLocator_le _ x).trans_eq (Finset.card_erase_of_mem hv)

/-- The evaluator is `S` times the locator below `n`: each power series times its factor is 1 up to the power `n`. -/
theorem PowerSums.coeff_mul_placeLocator {i : Nat} (hi : i < n) :
    (S * placeLocator E x).coeff i = (placeEvaluator E x e).coeff i := by
  have series : (∑ v ∈ E, C (e v) * ∑ k ∈ Finset.range n, (C (x v) * X) ^ k) * placeLocator E x =
      placeEvaluator E x e - X ^ n * ∑ v ∈ E, C (e v) * C (x v) ^ n * placeLocator (E.erase v) x := by
    rw [placeEvaluator, Finset.sum_mul, Finset.mul_sum, ← Finset.sum_sub_distrib]
    refine Finset.sum_congr rfl fun v hv => ?_
    have telescope := mul_neg_geom_sum (C (x v) * X) n
    rw [mul_pow] at telescope
    rw [placeLocator_erase E x hv]
    linear_combination C (e v) * placeLocator (E.erase v) x * telescope
  have terms (a : Nat) (ha : a < n) :
      (∑ v ∈ E, C (e v) * ∑ k ∈ Finset.range n, (C (x v) * X) ^ k).coeff a = S.coeff a := by
    rw [h.coeff a ha, finsetSum_coeff]
    refine Finset.sum_congr rfl fun v _ => ?_
    simp only [coeff_C_mul, finsetSum_coeff, mul_pow, ← C_pow, coeff_X_pow, mul_ite, mul_one, mul_zero]
    rw [Finset.sum_ite_eq, if_pos (Finset.mem_range.2 ha)]
  calc (S * placeLocator E x).coeff i
      = ((∑ v ∈ E, C (e v) * ∑ k ∈ Finset.range n, (C (x v) * X) ^ k) * placeLocator E x).coeff i := by
        rw [Polynomial.coeff_mul, Polynomial.coeff_mul]
        refine Finset.sum_congr rfl fun ab hab => ?_
        have below := Finset.HasAntidiagonal.mem_antidiagonal.1 hab
        rw [terms ab.1 (by omega)]
    _ = (placeEvaluator E x e).coeff i := by
        rw [series, coeff_sub, coeff_X_pow_mul', if_neg (Nat.not_le.2 hi), sub_zero]

theorem PowerSums.eval_placeEvaluator {v : Nat} (hv : v ∈ E) :
    (placeEvaluator E x e).eval (x v)⁻¹ = e v * (placeLocator (E.erase v) x).eval (x v)⁻¹ := by
  rw [placeEvaluator, eval_finsetSum, Finset.sum_eq_single_of_mem v hv, eval_mul, eval_C]
  intro u _ other
  rw [eval_mul, eval_placeLocator, Finset.prod_eq_zero (Finset.mem_erase.2 ⟨other.symm, hv⟩), mul_zero]
  rw [mul_inv_cancel₀ (h.place v hv), sub_self]

theorem PowerSums.eval_derivative {v : Nat} (hv : v ∈ E) :
    (derivative (placeLocator E x)).eval (x v)⁻¹ = -(x v * (placeLocator (E.erase v) x).eval (x v)⁻¹) := by
  rw [placeLocator_erase E x hv, derivative_mul]
  simp [mul_inv_cancel₀ (h.place v hv)]

theorem PowerSums.eval_derivative_ne_zero {v : Nat} (hv : v ∈ E) :
    (derivative (placeLocator E x)).eval (x v)⁻¹ ≠ 0 := by
  rw [h.eval_derivative hv]
  exact neg_ne_zero.2 (mul_ne_zero (h.place v hv) (h.eval_erase_ne_zero hv))

/-- Forney's formula, up to the sign: the value of a place from the evaluator and the derivative of the locator
(45_reed_solomon.md R137, step 3). -/
theorem PowerSums.forney {v : Nat} (hv : v ∈ E) :
    x v * (placeEvaluator E x e).eval (x v)⁻¹ * ((derivative (placeLocator E x)).eval (x v)⁻¹)⁻¹ = -e v := by
  rw [h.eval_placeEvaluator hv, h.eval_derivative hv]
  have place := h.place v hv
  have others := h.eval_erase_ne_zero hv
  generalize (placeLocator (E.erase v) x).eval (x v)⁻¹ = others at others ⊢
  field_simp

end

end

end Sys2Proof.Proofs
end

section
/-!
SUPPORT. The bytes in a field, coefficient lists as polynomials over it, and that step 1 of the reference procedure is
the procedure of Berlekamp and Massey (40_field_and_bit_primitives.md R90; 45_reed_solomon.md R136).
-/

namespace Sys2Proof.Proofs

open Sys2Proof.Machine Sys2Proof.Claims

/-! ## Trailing zeros -/

theorem trimZeros_concat (P : List Byte) (a : Byte) : trimZeros (P ++ [a]) = if a = 0 then trimZeros P else P ++ [a] := by
  rw [trimZeros, List.reverse_concat, List.dropWhile_cons]
  simp only [beq_iff_eq]
  split
  · rfl
  · rw [List.reverse_cons, List.reverse_reverse]

theorem coeff_concat (P : List Byte) (a : Byte) (j : Nat) :
    coeff (P ++ [a]) j = if j = P.length then a else coeff P j := by
  rcases Nat.lt_trichotomy j P.length with below | rfl | above
  · rw [if_neg below.ne, coeff, List.getD_append _ _ _ _ below, coeff]
  · simp [coeff]
  · rw [if_neg above.ne', coeff, coeff, List.getD_eq_default _ _ (by simpa using above),
      List.getD_eq_default _ _ above.le]

theorem coeff_trimZeros (P : List Byte) (j : Nat) : coeff (trimZeros P) j = coeff P j := by
  induction P using List.reverseRecOn with
  | nil => rfl
  | append_singleton P a ih =>
    rw [trimZeros_concat]
    split
    · next zero =>
      rw [ih, coeff_concat, zero]
      split
      · next last => rw [last, coeff, List.getD_eq_default _ _ le_rfl]
      · rfl
    · rfl

/-- The list ends at the last coefficient that is not zero. -/
theorem length_trimZeros {P : List Byte} {n : Nat} (last : coeff P n ≠ 0) (above : ∀ j, n < j → coeff P j = 0) :
    (trimZeros P).length = n + 1 := by
  induction P using List.reverseRecOn with
  | nil => exact absurd rfl last
  | append_singleton P a ih =>
    simp only [coeff_concat] at last above
    rw [trimZeros_concat]
    have beyond {j : Nat} (hj : P.length ≤ j) : coeff P j = 0 := List.getD_eq_default _ _ hj
    by_cases zero : a = 0
    · rw [if_pos zero]
      have inside : n ≠ P.length := fun same => last (by rw [if_pos same, zero])
      rw [if_neg inside] at last
      refine ih last fun j hj => ?_
      by_cases end_ : j = P.length
      · exact beyond end_.ge
      · rw [← above j hj, if_neg end_]
    · rw [if_neg zero, List.length_append, List.length_singleton]
      by_contra other
      rcases Nat.lt_or_gt_of_ne (fun same : P.length = n => other (by rw [same])) with short | long
      · rw [if_neg short.ne'] at last
        exact last (beyond short.le)
      · exact zero (by rw [← above P.length long, if_pos rfl])

/-! ## The bytes in a field -/

section
open Polynomial

/-- The residues of the bytes map to a field. -/
theorem exists_field (p : Params) :
    ∃ (K : Type) (_ : Field K), Nonempty (AdjoinRoot (polyOf p.raw.primPoly) →+* K) := by
  have nontrivial : Nontrivial (AdjoinRoot (polyOf p.raw.primPoly)) := by
    refine ⟨residue p 0, residue p 1, fun same => ?_⟩
    exact absurd (residue_injective p same) (by decide)
  obtain ⟨I, maximal⟩ := Ideal.exists_maximal (AdjoinRoot (polyOf p.raw.primPoly))
  exact ⟨_, Ideal.Quotient.field I, ⟨Ideal.Quotient.mk I⟩⟩

section
variable {p : Params} {K : Type} [Field K] (f : AdjoinRoot (polyOf p.raw.primPoly) →+* K)

/-- A byte as an element of the field. -/
noncomputable def val (a : Byte) : K := f (residue p a)

@[simp] theorem val_zero : val f 0 = 0 := by rw [val, residue_zero, map_zero]

@[simp] theorem val_one : val f 1 = 1 := by rw [val, residue_one, map_one]

@[simp] theorem val_gfAdd (a b : Byte) : val f (gfAdd a b) = val f a + val f b := by
  rw [val, residue_gfAdd, map_add, val, val]

theorem val_gfAdd_eq_sub (a b : Byte) : val f (gfAdd a b) = val f a - val f b := by
  rw [val, residue_gfAdd_eq_sub, map_sub, val, val]

@[simp] theorem val_gfMul (a b : Byte) : val f (gfMul p.raw a b) = val f a * val f b := by
  rw [val, residue_gfMul, map_mul, val, val]

@[simp] theorem val_eq_zero_iff {a : Byte} : val f a = 0 ↔ a = 0 := by
  refine ⟨fun zero => ?_, fun zero => zero ▸ val_zero f⟩
  by_contra nonzero
  exact ((isUnit_residue p nonzero).map f).ne_zero zero

theorem val_injective : Function.Injective (val f) := by
  intro a b same
  rw [← gfAdd_eq_zero_iff, ← val_eq_zero_iff f, val_gfAdd_eq_sub, same, sub_self]

theorem val_gfInv {a : Byte} (h : a ≠ 0) : val f (gfInv p.raw a) = (val f a)⁻¹ := by
  refine eq_inv_of_mul_eq_one_right ?_
  rw [← val_gfMul, gfMul_gfInv_self p h, val_one]

theorem val_gfSum (n : Nat) (g : Nat → Byte) : val f (gfSum n g) = ∑ i ∈ Finset.range n, val f (g i) := by
  rw [val, residue_gfSum, map_sum]
  rfl

theorem val_powerSum (r : List Byte) (i : Nat) :
    val f (powerSum p.raw r i) = ∑ v ∈ Finset.range r.length, val f (r.getD v 0) * val f (apow p.raw v) ^ i := by
  rw [val, residue_powerSum, map_sum]
  exact Finset.sum_congr rfl fun v _ => by rw [map_mul, map_pow, val, val]

theorem val_add_self (a : Byte) : val f a + val f a = 0 := by rw [← val_gfAdd, gfAdd_self, val_zero]

include f in
theorem two_eq_zero : (2 : K) = 0 := by
  have double := val_add_self f 1
  rwa [val_one, one_add_one_eq_two] at double

/-! ## Coefficient lists as polynomials -/

/-- The polynomial with the listed coefficients, lowest first (40_field_and_bit_primitives.md R90). -/
noncomputable def listPoly (P : List Byte) : K[X] := ∑ j ∈ Finset.range P.length, C (val f (P.getD j 0)) * X ^ j

@[simp] theorem coeff_listPoly (P : List Byte) (j : Nat) : (listPoly f P).coeff j = val f (coeff P j) := by
  simp only [listPoly, finsetSum_coeff, coeff_C_mul, coeff_X_pow, mul_ite, mul_one, mul_zero]
  rw [Finset.sum_ite_eq, Machine.coeff]
  by_cases hj : j < P.length
  · rw [if_pos (Finset.mem_range.2 hj)]
  · rw [if_neg (Finset.mem_range.not.2 hj), List.getD_eq_default _ _ (Nat.not_lt.1 hj), val_zero]

theorem val_polyEval (P : List Byte) (z : Byte) : val f (polyEval p.raw P z) = (listPoly f P).eval (val f z) := by
  rw [val, residue_polyEval, map_sum, listPoly, eval_finsetSum]
  exact Finset.sum_congr rfl fun v _ => by rw [map_mul, map_pow, eval_mul, eval_C, eval_pow, eval_X, val, val]

theorem listPoly_singleton_one : listPoly f [1] = 1 := by
  rw [listPoly, List.length_singleton, Finset.sum_range_one, pow_zero, mul_one, List.getD_cons_zero, val_one, C_1]

/-! ## The polynomial of the loop's correction -/

theorem coeff_addShifted (F P : List Byte) (g : Byte) (m j : Nat) :
    coeff (addShifted p.raw F P g m) j =
      if j < m then coeff F j else gfAdd (coeff F j) (gfMul p.raw g (coeff P (j - m))) := by
  have beyond {Q : List Byte} {i : Nat} (hi : Q.length ≤ i) : coeff Q i = 0 := List.getD_eq_default _ _ hi
  by_cases hj : j < max F.length (P.length + m)
  · simp [addShifted, Machine.coeff, hj]
  · obtain ⟨hF, hP⟩ := max_le_iff.1 (Nat.not_lt.1 hj)
    rw [beyond (by simpa [addShifted] using Nat.not_lt.1 hj), beyond hF, if_neg (by omega), beyond (by omega),
      gfMul_eq_zero_of_eq_zero p (.inr rfl), gfAdd_self]

theorem listPoly_addShifted (F P : List Byte) (g : Byte) (m : Nat) :
    listPoly f (addShifted p.raw F P g m) = corrected (listPoly f F) (listPoly f P) m (val f g) := by
  ext j
  rw [corrected, coeff_sub, coeff_C_mul, coeff_X_pow_mul', coeff_listPoly, coeff_listPoly, coeff_addShifted]
  by_cases hj : j < m
  · rw [if_pos hj, if_neg (Nat.not_le.2 hj), mul_zero, sub_zero]
  · rw [if_neg hj, if_pos (Nat.not_lt.1 hj), val_gfAdd_eq_sub, val_gfMul, coeff_listPoly]

/-! ## The loop of step 1 -/

/-- The discrepancy of a turn is the term that the recurrence should make zero (45_reed_solomon.md R136). -/
def discrepancy (π : RawParams) (S : List Byte) (x : Locator) (q : Nat) : Byte :=
  gfAdd (coeff S q) (gfSum x.L fun j => gfMul π (coeff x.C (j + 1)) (coeff S (q - (j + 1))))

/-- The three turns of the loop (45_reed_solomon.md R136). -/
theorem locatorStep_eq (π : RawParams) (S : List Byte) (x : Locator) (q : Nat) :
    locatorStep π S x q =
      if discrepancy π S x q = 0 then { x with m := x.m + 1 }
      else if 2 * x.L ≤ q then
        { C := addShifted π x.C x.P (gfMul π (discrepancy π S x q) (gfInv π x.g)) x.m, P := x.C, L := q + 1 - x.L,
          m := 1, g := discrepancy π S x q }
      else { x with C := addShifted π x.C x.P (gfMul π (discrepancy π S x q) (gfInv π x.g)) x.m, m := x.m + 1 } := rfl

/-- The loop invariant in the terms of the procedure. -/
def LocatorHolds (S : List Byte) (q : Nat) (x : Locator) : Prop :=
  HoldsRecurrence (listPoly f S) q (listPoly f x.C) (listPoly f x.P) x.L x.m (val f x.g)

theorem val_discrepancy {S : List Byte} {x : Locator} {q : Nat} (h : LocatorHolds f S q x) :
    val f (discrepancy p.raw S x q) = (listPoly f S * listPoly f x.C).coeff q := by
  obtain ⟨const, degree, -⟩ := h.generates
  have bound := h.length_le
  have beyond : ∀ j ∈ Finset.range (q + 1), j ∉ Finset.range (x.L + 1) →
      (listPoly f x.C).coeff j * (listPoly f S).coeff (q - j) = 0 := by
    intro j _ far
    rw [coeff_eq_zero_of_natDegree_lt (degree.trans_lt (by simpa using far)), zero_mul]
  rw [mul_comm, Polynomial.coeff_mul,
    Finset.Nat.sum_antidiagonal_eq_sum_range_succ fun a b => (listPoly f x.C).coeff a * (listPoly f S).coeff b,
    ← Finset.sum_subset (Finset.range_subset_range.2 (Nat.succ_le_succ bound)) beyond, Finset.sum_range_succ', const,
    one_mul, discrepancy, val_gfAdd, val_gfSum, add_comm]
  simp

/-- Each turn keeps the invariant (45_reed_solomon.md R136). -/
theorem locatorHolds_locatorStep {S : List Byte} {x : Locator} {q : Nat} (h : LocatorHolds f S q x) :
    LocatorHolds f S (q + 1) (locatorStep p.raw S x q) := by
  have disc := val_discrepancy f h
  have factor : val f (gfMul p.raw (discrepancy p.raw S x q) (gfInv p.raw x.g)) =
      (listPoly f S * listPoly f x.C).coeff q / val f x.g := by
    rw [val_gfMul, val_gfInv f ((val_eq_zero_iff f).not.1 h.ne_zero), disc, div_eq_mul_inv]
  rw [locatorStep_eq]
  split
  case isTrue zero =>
    rw [zero, val_zero] at disc
    exact HoldsRecurrence.keep h disc.symm
  case isFalse fails =>
    have fails' := (val_eq_zero_iff f).not.2 fails
    rw [disc] at fails'
    split
    case isTrue outgrows =>
      rw [LocatorHolds, listPoly_addShifted, factor, disc]
      exact HoldsRecurrence.lengthen h fails' outgrows
    case isFalse fits =>
      rw [LocatorHolds, listPoly_addShifted, factor]
      exact HoldsRecurrence.adjust h (Nat.not_le.1 fits)

/-- The length after a turn: it changes only by a correction that outgrows it. -/
theorem locatorStep_length {S : List Byte} {x : Locator} {q M : Nat} {G : K[X]} (h : LocatorHolds f S q x)
    (hG : Generates (listPoly f S) (q + 1) G M) (short : x.L ≤ M) : (locatorStep p.raw S x q).L ≤ M := by
  rw [locatorStep_eq]
  split
  case isTrue => exact short
  case isFalse fails =>
    split
    case isTrue =>
      have fails' := (val_eq_zero_iff f).not.2 fails
      rw [val_discrepancy f h] at fails'
      have long := lt_add_length_of_fails h.generates fails' hG
      dsimp only
      omega
    case isFalse => exact short

/-- The whole loop: a recurrence for all the terms, no longer than any other. -/
theorem locatorHolds_foldl (S : List Byte) (n : Nat) :
    LocatorHolds f S n ((List.range n).foldl (locatorStep p.raw S) { C := [1], P := [1], L := 0, m := 1, g := 1 }) := by
  induction n with
  | zero =>
    rw [List.range_zero, List.foldl_nil, LocatorHolds, listPoly_singleton_one, val_one]
    exact holdsRecurrence_zero _
  | succ n ih =>
    rw [List.range_succ, List.foldl_concat]
    exact locatorHolds_locatorStep f ih

theorem foldl_locatorStep_length (S : List Byte) (n : Nat) {M : Nat} {G : K[X]} (hG : Generates (listPoly f S) n G M) :
    ((List.range n).foldl (locatorStep p.raw S) { C := [1], P := [1], L := 0, m := 1, g := 1 }).L ≤ M := by
  induction n with
  | zero => exact Nat.zero_le M
  | succ n ih =>
    rw [List.range_succ, List.foldl_concat]
    exact locatorStep_length f (locatorHolds_foldl f S n) hG (ih (hG.mono (Nat.le_succ n)))

end

end

end Sys2Proof.Proofs
end

section
/-!
SUPPORT AND PROOFS. The steps of the reference procedure on a word within reach of a member: the locator, the positions,
the evaluator and the derivative, the values; that the procedure finds the member; and the statements about RSCOR and
RSALL that rest on it (45_reed_solomon.md R134 to R139; log 6).
-/

namespace Sys2Proof.Proofs

open Sys2Proof.Machine Sys2Proof.Claims

/-! ## Entering the values -/

/-- The value that step 3 enters at a position (45_reed_solomon.md R137). -/
def errorValue (π : RawParams) (W C' : List Byte) (v : Nat) : Byte :=
  gfMul π (gfMul π (apow π v) (polyEval π W (gfInv π (apow π v)))) (gfInv π (polyEval π C' (gfInv π (apow π v))))

theorem correctValues_cons (π : RawParams) (W C' : List Byte) (v : Nat) (E : List Nat) (r : List Byte) :
    correctValues π W C' (v :: E) r =
      if polyEval π C' (gfInv π (apow π v)) = 0 then none
      else if errorValue π W C' v = 0 then none
      else correctValues π W C' E (r.set v (gfAdd (coeff r v) (errorValue π W C' v))) := rfl

/-- Right values at all the positions where two words differ take one to the other. -/
theorem correctValues_eq_some {π : RawParams} {W C' : List Byte} {c : List Byte} {E : List Nat} (once : E.Nodup)
    (divisor : ∀ v ∈ E, polyEval π C' (gfInv π (apow π v)) ≠ 0) (nonzero : ∀ v ∈ E, errorValue π W C' v ≠ 0)
    {r : List Byte} (length : r.length = c.length) (inside : ∀ v ∈ E, v < r.length)
    (value : ∀ v ∈ E, gfAdd (coeff r v) (errorValue π W C' v) = coeff c v)
    (others : ∀ v, v ∉ E → coeff r v = coeff c v) : correctValues π W C' E r = some c := by
  induction E generalizing r with
  | nil =>
    rw [correctValues, Option.some.injEq]
    refine List.ext_getElem length fun v hr hc => ?_
    have same := others v List.not_mem_nil
    rwa [coeff, coeff, List.getD_eq_getElem _ _ hr, List.getD_eq_getElem _ _ hc] at same
  | cons v E ih =>
    obtain ⟨fresh, once⟩ := List.nodup_cons.1 once
    obtain ⟨divisor_v, divisor⟩ := List.forall_mem_cons.1 divisor
    obtain ⟨nonzero_v, nonzero⟩ := List.forall_mem_cons.1 nonzero
    obtain ⟨inside_v, inside⟩ := List.forall_mem_cons.1 inside
    obtain ⟨value_v, value⟩ := List.forall_mem_cons.1 value
    have here : coeff (r.set v (coeff c v)) v = coeff c v := by
      rw [coeff, List.getD_eq_getElem?_getD, List.getElem?_set_self inside_v, Option.getD_some]
    have elsewhere {u : Nat} (other : u ≠ v) : coeff (r.set v (coeff c v)) u = coeff r u := by
      rw [coeff, List.getD_eq_getElem?_getD, List.getElem?_set_ne other.symm, ← List.getD_eq_getElem?_getD, coeff]
    rw [correctValues_cons, if_neg divisor_v, if_neg nonzero_v, value_v]
    refine ih once divisor nonzero (by rw [List.length_set, length]) (by rwa [List.length_set])
      (fun u hu => ?_) fun u hu => ?_
    · rw [elsewhere (ne_of_mem_of_not_mem hu fresh), value u hu]
    · by_cases same : u = v
      · rw [same, here]
      · rw [elsewhere same, others u (List.mem_cons.not.2 (not_or.2 ⟨same, hu⟩))]

/-! ## The steps on a word within reach of a member -/

section
open Polynomial

variable {p : Params} {K : Type} [Field K] (f : AdjoinRoot (polyOf p.raw.primPoly) →+* K)

/-- The place of a position: its power of `ALPHA` (45_reed_solomon.md R137). -/
noncomputable def place (v : Nat) : K := val f (apow p.raw v)

/-- The difference of two words at a position. -/
noncomputable def difference (r c : List Byte) (v : Nat) : K := val f (r.getD v 0) - val f (c.getD v 0)

theorem place_ne_zero (v : Nat) : place f v ≠ 0 := (val_eq_zero_iff f).not.2 (apow_ne_zero p v)

theorem place_ne_place {u v : Nat} (hu : u < 255) (hv : v < 255) (other : u ≠ v) : place f u ≠ place f v :=
  fun same => apow_ne_apow p hu hv other (val_injective f same)

theorem val_gfInv_apow (v : Nat) : val f (gfInv p.raw (apow p.raw v)) = (place f v)⁻¹ := val_gfInv f (apow_ne_zero p v)

variable {r c : List Byte} {t : Nat} (length : r.length = c.length) (bound : r.length ≤ 255)
  (member : InCode p.raw t c) (near : dist r c ≤ t)

include length in
theorem card_diffPositions_le (near : dist r c ≤ t) : (diffPositions r c).card ≤ t :=
  dist_eq_card_diffPositions length ▸ near

include length bound member

/-- The syndromes of the word are those of its differences from the member. -/
theorem powerSums_syndromes :
    PowerSums (listPoly f (syndromes p.raw r t)) (2 * t) (diffPositions r c) (place f) (difference f r c) where
  coeff i hi := by
    have drop : ∀ v ∈ Finset.range r.length, difference f r c v * place f v ^ i ≠ 0 → r.getD v 0 ≠ c.getD v 0 := by
      intro v _ term same
      exact term (by rw [difference, same, sub_self, zero_mul])
    have zero : val f (powerSum p.raw c i) = 0 := by rw [member i hi, val_zero]
    rw [val_powerSum, ← length] at zero
    rw [coeff_listPoly, Machine.coeff, getD_syndromes p r hi, val_powerSum, diffPositions, Finset.sum_filter_of_ne drop,
      ← sub_zero (∑ v ∈ _, _), ← zero, ← Finset.sum_sub_distrib]
    exact Finset.sum_congr rfl fun v _ => (sub_mul _ _ _).symm
  place v _ := place_ne_zero f v
  value v hv zero := (mem_diffPositions.1 hv).2 (val_injective f (sub_eq_zero.1 zero))
  distinct u hu v hv same := by
    by_contra other
    have below {v : Nat} (hv : v ∈ diffPositions r c) : v < 255 := (mem_diffPositions.1 hv).1.trans_le bound
    exact place_ne_place f (below hu) (below hv) other same

include near

/-- Step 1 finds the locator of the positions where the word differs from the member (45_reed_solomon.md R136). -/
theorem exists_locate_eq_some :
    ∃ F, locate p.raw (syndromes p.raw r t) t = some (F, (diffPositions r c).card) ∧
      listPoly f F = placeLocator (diffPositions r c) (place f) := by
  have sums := powerSums_syndromes f length bound member
  have few := card_diffPositions_le length near
  have holds := locatorHolds_foldl f (syndromes p.raw r t) (2 * t)
  have short := foldl_locatorStep_length f (syndromes p.raw r t) (2 * t) sums.generates_placeLocator
  have found := sums.eq_placeLocator holds.generates short (by omega)
  have long := holds.generates.degree
  rw [found, sums.natDegree_placeLocator] at long
  rw [locate]
  generalize (List.range (2 * t)).foldl _ _ = x at found long short ⊢
  have coefficient (j : Nat) : val f (Machine.coeff x.C j) = (placeLocator (diffPositions r c) (place f)).coeff j := by
    rw [← found, coeff_listPoly]
  have last : Machine.coeff x.C (diffPositions r c).card ≠ 0 := by
    intro zero
    have leading := coefficient (diffPositions r c).card
    rw [zero, val_zero, ← sums.natDegree_placeLocator, ← leadingCoeff, eq_comm, leadingCoeff_eq_zero] at leading
    have const := coeff_zero_placeLocator (diffPositions r c) (place f)
    rw [leading, coeff_zero] at const
    exact zero_ne_one const
  have above (j : Nat) (hj : (diffPositions r c).card < j) : Machine.coeff x.C j = 0 := by
    rw [← val_eq_zero_iff f, coefficient]
    exact coeff_eq_zero_of_natDegree_lt (sums.natDegree_placeLocator.trans_lt hj)
  have exact_length : (diffPositions r c).card = x.L := long.antisymm short
  refine ⟨trimZeros x.C, ?_, ?_⟩
  · rw [if_neg (by rw [length_trimZeros last above]; omega), exact_length]
  · rw [← found]
    ext j
    rw [coeff_listPoly, coeff_listPoly, coeff_trimZeros]

omit near

section
variable {F : List Byte} (locator : listPoly f F = placeLocator (diffPositions r c) (place f))
include locator

/-- Step 2 finds the positions where the word differs from the member (45_reed_solomon.md R137). -/
theorem mem_errorPositions {v : Nat} : v ∈ errorPositions p.raw F r.length ↔ v ∈ diffPositions r c := by
  have sums := powerSums_syndromes f length bound member
  rw [errorPositions, List.mem_filter, List.mem_range, beq_iff_eq, ← val_eq_zero_iff f, val_polyEval, val_gfInv_apow,
    locator]
  refine ⟨fun ⟨inside, zero⟩ => ?_, fun hv => ⟨(mem_diffPositions.1 hv).1, sums.eval_placeLocator_eq_zero hv⟩⟩
  by_contra other
  refine eval_placeLocator_ne_zero (place_ne_zero f v) (fun u hu => ?_) zero
  have below : u < 255 := (mem_diffPositions.1 hu).1.trans_le bound
  exact place_ne_place f below (inside.trans_le bound) (ne_of_mem_of_not_mem hu other)

theorem length_errorPositions : (errorPositions p.raw F r.length).length = (diffPositions r c).card := by
  have once : (errorPositions p.raw F r.length).Nodup := List.nodup_range.filter _
  rw [← List.toFinset_card_of_nodup once]
  congr 1
  ext v
  rw [List.mem_toFinset, mem_errorPositions f length bound member locator]

/-- The evaluator of step 3 is that of the places (45_reed_solomon.md R137). -/
theorem listPoly_evaluator (near : dist r c ≤ t) {v : Nat} (hv : v ∈ diffPositions r c) :
    listPoly f (evaluator p.raw (syndromes p.raw r t) F (diffPositions r c).card t) =
      placeEvaluator (diffPositions r c) (place f) (difference f r c) := by
  have sums := powerSums_syndromes f length bound member
  have few := card_diffPositions_le length near
  have some : 0 < (diffPositions r c).card := Finset.card_pos.2 ⟨v, hv⟩
  ext i
  rw [coeff_listPoly]
  by_cases hi : i < 2 * t
  · have beyond : ∀ j ∈ Finset.range (i + 1), j ∉ Finset.range (min i (diffPositions r c).card + 1) →
        (listPoly f F).coeff j * (listPoly f (syndromes p.raw r t)).coeff (i - j) = 0 := by
      intro j hj far
      rw [Finset.mem_range] at hj far
      rw [locator, coeff_eq_zero_of_natDegree_lt (sums.natDegree_placeLocator.trans_lt (by omega)), zero_mul]
    have within : Finset.range (min i (diffPositions r c).card + 1) ⊆ Finset.range (i + 1) :=
      Finset.range_subset_range.2 (Nat.succ_le_succ (min_le_left _ _))
    rw [← sums.coeff_mul_placeLocator hi, ← locator, mul_comm, Polynomial.coeff_mul,
      Finset.Nat.sum_antidiagonal_eq_sum_range_succ fun a b =>
        (listPoly f F).coeff a * (listPoly f (syndromes p.raw r t)).coeff b,
      ← Finset.sum_subset within beyond, evaluator, Machine.coeff, List.getD_eq_getElem _ _ (by simpa using hi)]
    simp [val_gfSum, mul_comm]
  · have degree := natDegree_placeEvaluator_le (diffPositions r c) (place f) (difference f r c)
    rw [coeff_eq_zero_of_natDegree_lt (by omega), Machine.coeff, List.getD_eq_default _ _ (by simpa [evaluator] using hi),
      val_zero]

/-- The derivative of step 3 is that of the locator, as `i + 1` is 1 or 0 in the field (45_reed_solomon.md R137). -/
theorem listPoly_derivative :
    listPoly f (Machine.derivative F (diffPositions r c).card) =
      Polynomial.derivative (placeLocator (diffPositions r c) (place f)) := by
  have sums := powerSums_syndromes f length bound member
  ext i
  rw [coeff_listPoly, coeff_derivative, ← locator, coeff_listPoly]
  by_cases hi : i < (diffPositions r c).card
  · rw [Machine.derivative, Machine.coeff, List.getD_eq_getElem _ _ (by simpa using hi)]
    simp only [List.getElem_map, List.getElem_range]
    have parity : ((i + 1 : Nat) : K) = if i % 2 = 0 then 1 else 0 := by
      obtain ⟨k, hk⟩ : ∃ k, i = 2 * k + i % 2 := ⟨i / 2, (Nat.div_add_mod i 2).symm⟩
      rcases Nat.mod_two_eq_zero_or_one i with even | odd
      · rw [if_pos even, hk, even]
        push_cast
        rw [two_eq_zero f]
        ring
      · rw [if_neg (by omega), hk, odd]
        push_cast
        linear_combination ((k : K) + 1) * two_eq_zero f
    rw [← Nat.cast_succ, parity]
    split
    · rw [mul_one]
    · rw [mul_zero, val_zero]
  · have beyond : val f (Machine.coeff F (i + 1)) = 0 := by
      rw [← coeff_listPoly, locator]
      exact coeff_eq_zero_of_natDegree_lt (sums.natDegree_placeLocator.trans_lt (by omega))
    rw [beyond, zero_mul, Machine.coeff, List.getD_eq_default _ _ (by simpa [Machine.derivative] using hi), val_zero]

/-- The divisor of step 3 is the derivative of the locator at the inverse of the place. -/
theorem val_divisor (v : Nat) :
    val f (polyEval p.raw (Machine.derivative F (diffPositions r c).card) (gfInv p.raw (apow p.raw v))) =
      (Polynomial.derivative (placeLocator (diffPositions r c) (place f))).eval (place f v)⁻¹ := by
  rw [val_polyEval, listPoly_derivative f length bound member locator, val_gfInv_apow]

theorem divisor_ne_zero {v : Nat} (hv : v ∈ diffPositions r c) :
    polyEval p.raw (Machine.derivative F (diffPositions r c).card) (gfInv p.raw (apow p.raw v)) ≠ 0 := by
  intro zero
  refine (powerSums_syndromes f length bound member).eval_derivative_ne_zero hv ?_
  rw [← val_divisor f length bound member locator, zero, val_zero]

/-- Step 3 computes the difference at each position (45_reed_solomon.md R137). -/
theorem val_errorValue (near : dist r c ≤ t) {v : Nat} (hv : v ∈ diffPositions r c) :
    val f (errorValue p.raw (evaluator p.raw (syndromes p.raw r t) F (diffPositions r c).card t)
      (Machine.derivative F (diffPositions r c).card) v) = -difference f r c v := by
  rw [errorValue, val_gfMul, val_gfMul, val_gfInv f (divisor_ne_zero f length bound member locator hv),
    val_divisor f length bound member locator, val_polyEval, val_gfInv_apow,
    listPoly_evaluator f length bound member locator near hv]
  exact (powerSums_syndromes f length bound member).forney hv

/-- Step 3 takes the word to the member (45_reed_solomon.md R137). -/
theorem correctValues_errorPositions (near : dist r c ≤ t) :
    correctValues p.raw (evaluator p.raw (syndromes p.raw r t) F (diffPositions r c).card t)
      (Machine.derivative F (diffPositions r c).card) (errorPositions p.raw F r.length) r = some c := by
  have positions {v : Nat} := mem_errorPositions f length bound member locator (v := v)
  refine correctValues_eq_some (List.nodup_range.filter _)
    (fun v hv => divisor_ne_zero f length bound member locator (positions.1 hv)) (fun v hv zero => ?nonzero) length
    (fun v hv => (mem_diffPositions.1 (positions.1 hv)).1) (fun v hv => ?value) fun v hv => ?others
  case nonzero =>
    refine (powerSums_syndromes f length bound member).value v (positions.1 hv) ?_
    rw [← neg_eq_zero, ← val_errorValue f length bound member locator near (positions.1 hv), zero, val_zero]
  case value =>
    refine val_injective f ?_
    rw [val_gfAdd, val_errorValue f length bound member locator near (positions.1 hv), difference, Machine.coeff,
      Machine.coeff]
    ring
  case others =>
    have same := positions.not.1 hv
    rw [mem_diffPositions, not_and, not_not] at same
    by_cases inside : v < r.length
    · exact same inside
    · rw [Machine.coeff, Machine.coeff, List.getD_eq_default _ _ (Nat.not_lt.1 inside),
        List.getD_eq_default _ _ (length ▸ Nat.not_lt.1 inside)]

end

end

/-! ## The procedure as a whole -/

/-- The procedure finds the member within reach of a word (45_reed_solomon.md R134, R136, R137; log 6). -/
theorem nearestMember_eq_some {p : Params} {r c : List Byte} {t : Nat} (length : r.length = c.length)
    (bound : r.length ≤ 255) (member : InCode p.raw t c) (near : dist r c ≤ t) : nearestMember p.raw r t = some c := by
  obtain ⟨K, _, ⟨f⟩⟩ := exists_field p
  obtain ⟨F, located, locator⟩ := exists_locate_eq_some f length bound member near
  have several := length_errorPositions f length bound member locator
  have entered := correctValues_errorPositions f length bound member locator near
  simp only [nearestMember, located, several, ne_eq, not_true_eq_false, if_false, entered,
    (isMember_iff p c t).2 member, if_true]

/-- A block within reach of a member is corrected, and to that member (45_reed_solomon.md R134). -/
theorem nearestMember_received {s : State} (legal : LegalVersion s) {b : Nat} (hb : b < blockCount (capOf s))
    {c : List Byte} (reach : WithinReach s b c) :
    nearestMember s.params.raw (received s b) (capacityOf s b) = some c := by
  obtain ⟨length, member, near⟩ := reach
  have bound := (block_bounds legal hb).2.1
  exact nearestMember_eq_some ((length_received s b).trans length.symm) ((length_received s b).trans_le bound) member near

/-! ## The obligations -/

/-- Settles O47: the procedure finds the member, and the correction writes it. -/
theorem rscorRestoresTheMemberWithinReach : Obligations.RscorRestoresTheMemberWithinReach := by
  intro s b c legal hb nonmember reach
  obtain ⟨f, run, ends⟩ := exec_rscor_ends legal hb
  have found := nearestMember_received legal hb reach
  cases ends with
  | refused t _ notFound => cases found.symm.trans notFound
  | corrected d t reach' done =>
    obtain rfl : c = d := withinReach_unique legal hb reach reach'
    have moved : received s b ≠ c := fun same => nonmember (same ▸ reach.2.1)
    refine ⟨t, run, done.frame, done.readBlk, done.readSyn, fun b' => ?_⟩
    rw [done.bstatOf b', correctedStatus, if_neg (show received (setStage 5 s) b ≠ c from moved)]
    rfl

/-- A loop over blocks that all have a member within reach corrects them all, and to those members
(45_reed_solomon.md R139). -/
theorem BlocksEnd.received_eq {s t : State} (legal : LegalVersion s) {n : Nat} (hn : n ≤ blockCount (capOf s))
    (done : BlocksEnd s n t) {c : Nat → List Byte} (reach : ∀ b < n, WithinReach s b (c b)) {b : Nat} (hb : b < n) :
    received t b = c b :=
  withinReach_unique legal (hb.trans_le hn) (done.reach b hb) (reach b hb)

/-- The bytes of the corrected blocks: the members, and the rest of the rows as before. -/
theorem BlocksEnd.blkByte_eq {s t : State} (legal : LegalVersion s) {n : Nat} (hn : n ≤ blockCount (capOf s))
    (done : BlocksEnd s n t) {c : Nat → List Byte} (reach : ∀ b < n, WithinReach s b (c b)) {b j : Nat} (hb : b < n)
    (hj : j < 256) :
    blkByte t b j = if j < blockTotal (capOf s) b then (c b).getD j 0 else blkByte s b j := by
  split
  · next inside =>
    rw [← done.received_eq legal hn reach hb, getD_received t (done.capOf_eq ▸ inside)]
  · next outside => exact done.rest b hb j (Nat.not_lt.1 outside) hj

/-- Settles O50: no block stops the loop, as the procedure finds the member of each. -/
theorem rsallRestoresEveryBlock : Obligations.RsallRestoresEveryBlock := by
  intro s c legal reach
  obtain ⟨f, run, ends⟩ := exec_rsall_ends legal
  cases ends with
  | stopped b t u hb _ _ notFound =>
    cases (nearestMember_received legal hb (reach b hb)).symm.trans notFound
  | corrected t done =>
    refine ⟨t, run, done.frame, fun b hb j hj => done.blkByte_eq (s := setStage 5 s) legal le_rfl reach hb hj,
      done.readBlk, done.synByte, done.readSyn, fun b => (done.bstatOf b).trans ?_⟩
    split
    · next hb =>
      rw [done.received_eq (s := setStage 5 s) legal le_rfl reach hb]
      rfl
    · rfl

/-- Settles O51: the loop does not stop before the first block out of reach, where it does stop. -/
theorem rsallStopsAtTheFirstBlockOutOfReach : Obligations.RsallStopsAtTheFirstBlockOutOfReach := by
  intro s c b0 legal hb0 reach none
  obtain ⟨f, run, ends⟩ := exec_rsall_ends legal
  cases ends with
  | corrected t done => exact absurd (done.reach b0 hb0) (none _)
  | stopped b t u hb before _ notFound done =>
    obtain rfl : b = b0 := by
      rcases Nat.lt_trichotomy b b0 with earlier | same | later
      · cases (nearestMember_received legal hb (reach b earlier)).symm.trans notFound
      · exact same
      · exact absurd (before.reach b0 later) (none _)
    have words {b' : Nat} (hb' : b' < b) {j : Nat} (hj : j < 256) :=
      before.blkByte_eq (s := setStage 5 s) legal hb.le reach hb' hj
    have frame := stopped_frame before done
    rw [show t.blk = u.blk by rw [frame]] at frame
    refine ⟨_, run, congrArg (recordFailure .blockUncorrectable b) frame,
      fun b' hb' j hj => (readBlk_stopped before done _).trans (words hb' hj),
      fun a ha => (readBlk_stopped before done a).trans (before.readBlk a ha),
      fun b' hb' i hi => synByte_stopped (s := setStage 5 s) legal hb before done hb' hi,
      fun a ha => readSyn_stopped (s := setStage 5 s) legal hb before done ha,
      fun b' => (bstatOf_stopped before done b').trans ?_⟩
    split
    · next hb' =>
      rw [before.received_eq (s := setStage 5 s) legal hb.le reach hb']
      rfl
    · rfl

end Sys2Proof.Proofs
end

section
/-!
SUPPORT AND PROOFS. Which places each command writes and which failures it raises, that STAGE decides no command, and the
statements about what commands write, about STAGE and about refused parameters (10_state.md R20, R32; 60_exceptions.md
R150, R156).
-/

namespace Sys2Proof.Proofs

open Sys2Proof.Machine Sys2Proof.Claims

/-! ## Refused parameters -/

theorem extractBody_of_not_legal {s : State} (h : ¬LegalVersion s) :
    extractBody s = .ended (recordFailure .badParameter 1 s) :=
  checkVersion_of_not_valid (validVersion_of_not_legal h) _

theorem syndBody_of_not_legal {s : State} (h : ¬LegalVersion s) (b : Nat) :
    syndBody b s = .ended (recordFailure .badParameter 1 s) :=
  checkVersion_of_not_valid (validVersion_of_not_legal h) _

theorem rscorBody_of_not_legal {s : State} (h : ¬LegalVersion s) (b : Nat) :
    rscorBody b s = .ended (recordFailure .badParameter 1 s) :=
  checkVersion_of_not_valid (validVersion_of_not_legal h) _

theorem rsallBody_of_not_legal {s : State} (h : ¬LegalVersion s) :
    rsallBody s = .ended (recordFailure .badParameter 1 s) :=
  checkVersion_of_not_valid (validVersion_of_not_legal h) _

theorem syndBody_of_missing {s : State} (legal : LegalVersion s) {b : Nat} (missing : ¬b < blockCount (capOf s)) :
    syndBody b s = .ended (recordFailure .badParameter 2 s) := by
  rw [syndBody, checkVersion_of_valid (validVersion_of_legal legal), checkBlock_of_not_lt missing]

theorem rscorBody_of_missing {s : State} (legal : LegalVersion s) {b : Nat} (missing : ¬b < blockCount (capOf s)) :
    rscorBody b s = .ended (recordFailure .badParameter 2 s) := by
  rw [rscorBody, checkVersion_of_valid (validVersion_of_legal legal), checkBlock_of_not_lt missing]

/-! ## What each body writes -/

/-- FMTDEC writes the format registers, or FormatUndecodable (41_format_decode.md R99, R100). -/
theorem fmtdecBody_writes (s : State) :
    ∃ st w lv m va co e i, (fmtdecBody s).state =
        { s with stage := st, fmtWord := w, level := lv, mask := m, fmtValid := va, fmtCopy := co, err := e,
                 errInfo := i } ∧
      (e ≠ s.err ∨ i ≠ s.errInfo → e = 3 ∧ i = 0) := by
  dsimp only [fmtdecBody]
  split
  case h_1 k _ => exact ⟨_, _, _, _, _, _, s.err, s.errInfo, rfl, by simp⟩
  case h_2 =>
    split
    case h_1 k _ => exact ⟨_, _, _, _, _, _, s.err, s.errInfo, rfl, by simp⟩
    case h_2 => exact ⟨1, s.fmtWord, s.level, s.mask, s.fmtValid, s.fmtCopy, 3, 0, rfl, fun _ => ⟨rfl, rfl⟩⟩

/-- UNMASK writes `GRID` (42_mask.md R105). -/
theorem unmaskBody_writes (s : State) :
    ∃ st g e i, (unmaskBody s).state = { s with stage := st, grid := g, err := e, errInfo := i } ∧
      (e ≠ s.err ∨ i ≠ s.errInfo → e = 9 ∧ i = 1) := by
  by_cases legal : LegalVersion s
  · exact ⟨2, _, s.err, s.errInfo, by rw [unmaskBody_of_legal legal]; exact unmasked_frame s, by simp⟩
  · exact ⟨s.stage, s.grid, 9, 1, by rw [unmaskBody_of_not_legal legal]; rfl, fun _ => ⟨rfl, rfl⟩⟩

/-- EXTRACT writes `CW` and `CWCNT`, and ModuleTraversalFailure (43_extract.md R112, R116). -/
theorem extractBody_writes (s : State) :
    ∃ st m n e i, (extractBody s).state = { s with stage := st, cw := m, cwCnt := n, err := e, errInfo := i } ∧
      (e ≠ s.err ∨ i ≠ s.errInfo → e = 4 ∨ e = 9 ∧ i = 1) := by
  by_cases legal : LegalVersion s
  · rw [extractBody_of_legal legal]
    dsimp only
    split
    · exact ⟨3, _, _, 4, _, congrArg (recordFailure _ _) (extracted_frame s), fun _ => .inl rfl⟩
    · exact ⟨3, _, _, s.err, s.errInfo, extracted_frame s, by simp⟩
  · exact ⟨s.stage, s.cw, s.cwCnt, 9, 1, by rw [extractBody_of_not_legal legal]; rfl, fun _ => .inr ⟨rfl, rfl⟩⟩

/-- DEINT writes `BLK` and `BSTAT` (44_deinterleave.md R121). -/
theorem deintBody_writes (s : State) :
    ∃ st m v e i, (deintBody s).state = { s with stage := st, blk := m, bstat := v, err := e, errInfo := i } ∧
      (e ≠ s.err ∨ i ≠ s.errInfo → e = 9 ∧ i = 1) := by
  by_cases legal : LegalVersion s
  · exact ⟨4, _, _, s.err, s.errInfo, by rw [deintBody_of_legal legal]; exact deinterleaved_frame legal, by simp⟩
  · exact ⟨s.stage, s.blk, s.bstat, 9, 1, by rw [deintBody_of_not_legal legal]; rfl, fun _ => ⟨rfl, rfl⟩⟩

/-- SYND writes `SYN` and `BSTAT` (45_reed_solomon.md R129). -/
theorem syndBody_writes (b : Nat) (s : State) :
    ∃ st m v e i, (syndBody b s).state = { s with stage := st, syn := m, bstat := v, err := e, errInfo := i } ∧
      (e ≠ s.err ∨ i ≠ s.errInfo → e = 9 ∧ (i = 1 ∨ i = 2)) := by
  by_cases legal : LegalVersion s
  · by_cases hb : b < blockCount (capOf s)
    · rw [syndBody_of_legal legal hb]
      exact ⟨5, _, _, s.err, s.errInfo, congrArg (setBstat b _) (withSyndromes_frame (setStage 5 s) b), by simp⟩
    · exact ⟨s.stage, s.syn, s.bstat, 9, 2, by rw [syndBody_of_missing legal hb]; rfl, fun _ => ⟨rfl, .inr rfl⟩⟩
  · exact ⟨s.stage, s.syn, s.bstat, 9, 1, by rw [syndBody_of_not_legal legal]; rfl, fun _ => ⟨rfl, .inl rfl⟩⟩

/-- RSCOR writes `BLK`, `SYN` and `BSTAT`, and BlockUncorrectable with its block (45_reed_solomon.md R134). -/
theorem rscorBody_writes (b : Nat) (s : State) :
    ∃ st m n v e i, (rscorBody b s).state =
        { s with stage := st, blk := m, syn := n, bstat := v, err := e, errInfo := i } ∧
      (e ≠ s.err ∨ i ≠ s.errInfo → e = 5 ∧ i = BitVec.ofNat 16 b ∨ e = 9 ∧ (i = 1 ∨ i = 2)) := by
  by_cases legal : LegalVersion s
  · by_cases hb : b < blockCount (capOf s)
    · have ends := correctionEnds_correctBlock (setStage 5 s) (block_bounds legal hb).1
      rw [rscorBody_of_legal legal hb]
      generalize correctBlock b (setStage 5 s) = f at ends
      cases ends with
      | corrected c t _ done => exact ⟨5, _, _, _, s.err, s.errInfo, done.frame, by simp⟩
      | refused t _ _ done =>
        exact ⟨5, _, _, _, 5, _, congrArg (recordFailure _ _) done.frame, fun _ => .inl ⟨rfl, rfl⟩⟩
    · exact ⟨s.stage, s.blk, s.syn, s.bstat, 9, 2, by rw [rscorBody_of_missing legal hb]; rfl,
        fun _ => .inr ⟨rfl, .inr rfl⟩⟩
  · exact ⟨s.stage, s.blk, s.syn, s.bstat, 9, 1, by rw [rscorBody_of_not_legal legal]; rfl,
      fun _ => .inr ⟨rfl, .inl rfl⟩⟩

/-- RSALL writes what RSCOR writes (45_reed_solomon.md R139). -/
theorem rsallBody_writes (s : State) :
    ∃ st m n v e i, (rsallBody s).state =
        { s with stage := st, blk := m, syn := n, bstat := v, err := e, errInfo := i } ∧
      (e ≠ s.err ∨ i ≠ s.errInfo → e = 5 ∨ e = 9 ∧ i = 1) := by
  by_cases legal : LegalVersion s
  · have ends := correctionsEnd_correctBlocks (s := setStage 5 s) legal le_rfl
    rw [rsallBody_of_legal legal]
    change CorrectionsEnd (setStage 5 s) (blockCount (capOf s)) (correctBlocks (List.range (blockCount (capOf s))) _) at ends
    generalize correctBlocks (List.range (blockCount (capOf s))) (setStage 5 s) = f at ends
    cases ends with
    | corrected t done => exact ⟨5, _, _, _, s.err, s.errInfo, done.frame, by simp⟩
    | stopped b t u _ before _ _ done =>
      have frame := stopped_frame before done
      exact ⟨5, _, _, _, 5, _, congrArg (recordFailure _ _) frame, fun _ => .inl rfl⟩
  · exact ⟨s.stage, s.blk, s.syn, s.bstat, 9, 1, by rw [rsallBody_of_not_legal legal]; rfl, fun _ => .inr ⟨rfl, rfl⟩⟩

/-! ## What RUN writes -/

/-- A relation that each stage of RUN and the refusal of the version meet, RUN meets as the chain of them
(46_sequencing.md R143). -/
theorem runBody_relation {R : State → State → Prop} (trans : ∀ s t u, R s t → R t u → R s u)
    (refusal : ∀ s, R s (recordFailure .badParameter 1 s)) (fmtdec : ∀ s, R s (fmtdecBody s).state)
    (unmask : ∀ s, R s (unmaskBody s).state) (extract : ∀ s, R s (extractBody s).state)
    (deint : ∀ s, R s (deintBody s).state) (rsall : ∀ s, R s (rsallBody s).state) (s : State) :
    R s (runBody s).state := by
  have chain {f g : State → Flow} (hf : ∀ s, R s (f s).state) (hg : ∀ s, R s (g s).state) (s : State) :
      R s ((f s).andThen g).state := by
    have first := hf s
    generalize f s = x at first ⊢
    cases x with
    | goesOn t => exact trans s t _ first (hg t)
    | ended t => exact first
  by_cases legal : LegalVersion s
  · rw [runBody_of_legal legal]
    exact chain fmtdec (chain unmask (chain extract (chain deint rsall))) s
  · rw [runBody_of_not_legal legal]
    exact refusal s

/-- What no command but SRST writes, and a failure that a stage of RUN raises, if any (10_state.md R32; 60_exceptions.md
R150). -/
structure KeepsInputs (s t : State) : Prop where
  version : t.version = s.version
  fmtRaw0 : t.fmtRaw0 = s.fmtRaw0
  fmtRaw1 : t.fmtRaw1 = s.fmtRaw1
  seed : t.seed = s.seed
  params : t.params = s.params
  pending : t.pending = s.pending
  reply : t.reply = s.reply
  failure : (t.err = s.err ∧ t.errInfo = s.errInfo) ∨
    t.err = 3 ∧ t.errInfo = 0 ∨ t.err = 4 ∨ t.err = 5 ∨ t.err = 9 ∧ t.errInfo = 1

theorem KeepsInputs.trans {s t u : State} (h : KeepsInputs s t) (h' : KeepsInputs t u) : KeepsInputs s u where
  version := h'.version.trans h.version
  fmtRaw0 := h'.fmtRaw0.trans h.fmtRaw0
  fmtRaw1 := h'.fmtRaw1.trans h.fmtRaw1
  seed := h'.seed.trans h.seed
  params := h'.params.trans h.params
  pending := h'.pending.trans h.pending
  reply := h'.reply.trans h.reply
  failure := by
    rcases h'.failure with ⟨err, info⟩ | failed
    · rw [err, info]
      exact h.failure
    · exact .inr failed

theorem keepsInputs_runBody (s : State) : KeepsInputs s (runBody s).state := by
  refine runBody_relation (R := KeepsInputs) (fun _ _ _ => KeepsInputs.trans) (fun s => ?refusal) (fun s => ?fmtdec)
    (fun s => ?unmask) (fun s => ?extract) (fun s => ?deint) (fun s => ?rsall) s
  case refusal => exact ⟨rfl, rfl, rfl, rfl, rfl, rfl, rfl, .inr (.inr (.inr (.inr ⟨rfl, rfl⟩)))⟩
  case fmtdec =>
    obtain ⟨st, w, lv, m, va, co, e, i, frame, failure⟩ := fmtdecBody_writes s
    rw [frame]
    exact ⟨rfl, rfl, rfl, rfl, rfl, rfl, rfl, by dsimp only; tauto⟩
  case unmask =>
    obtain ⟨st, g, e, i, frame, failure⟩ := unmaskBody_writes s
    rw [frame]
    exact ⟨rfl, rfl, rfl, rfl, rfl, rfl, rfl, by dsimp only; tauto⟩
  case extract =>
    obtain ⟨st, m, n, e, i, frame, failure⟩ := extractBody_writes s
    rw [frame]
    exact ⟨rfl, rfl, rfl, rfl, rfl, rfl, rfl, by dsimp only; tauto⟩
  case deint =>
    obtain ⟨st, m, v, e, i, frame, failure⟩ := deintBody_writes s
    rw [frame]
    exact ⟨rfl, rfl, rfl, rfl, rfl, rfl, rfl, by dsimp only; tauto⟩
  case rsall =>
    obtain ⟨st, m, n, v, e, i, frame, failure⟩ := rsallBody_writes s
    rw [frame]
    exact ⟨rfl, rfl, rfl, rfl, rfl, rfl, rfl, by dsimp only; tauto⟩

/-! ## STAGE decides nothing -/

theorem setStage_setStage (x y : BitVec 3) (s : State) : setStage y (setStage x s) = setStage y s := rfl

/-- Two runs of the body from states that differ in STAGE alone leave states that differ in it at most
(10_state.md R20). -/
def StageFree (body : State → Flow) : Prop :=
  ∀ (s : State) (x : BitVec 3), ∃ y, (body (setStage x s)).state = setStage y (body s).state

/-- A body that sets STAGE before anything else leaves the same state, whatever STAGE was. -/
theorem stageFree_of_eq {body : State → Flow} (same : ∀ s x, body (setStage x s) = body s) : StageFree body :=
  fun s x => ⟨(body s).state.stage, congrArg Flow.state (same s x)⟩

theorem stageFree_raiseFailure (k : FailKind) (n : Nat) : StageFree (raiseFailure k n) := fun _ x => ⟨x, rfl⟩

/-- The check of the version does not read STAGE. -/
theorem stageFree_checkVersion {body : State → Flow} (free : StageFree body) :
    StageFree fun s => checkVersion s body := by
  intro s x
  by_cases valid : validVersion s = true
  · have valid' : validVersion (setStage x s) = true := valid
    simp only [checkVersion_of_valid valid, checkVersion_of_valid valid']
    exact free s x
  · have valid' : validVersion (setStage x s) = false := Bool.eq_false_iff.2 valid
    simp only [checkVersion_of_not_valid (Bool.eq_false_iff.2 valid), checkVersion_of_not_valid valid']
    exact stageFree_raiseFailure .badParameter 1 s x

/-- The check of the block operand does not read STAGE. -/
theorem stageFree_checkBlock {body : State → Flow} (free : StageFree body) (b : Nat) :
    StageFree fun s => checkBlock b s body := by
  intro s x
  by_cases hb : b < blockCount (capOf s)
  · have hb' : b < blockCount (capOf (setStage x s)) := hb
    simp only [checkBlock_of_lt hb, checkBlock_of_lt hb']
    exact free s x
  · have hb' : ¬b < blockCount (capOf (setStage x s)) := hb
    simp only [checkBlock_of_not_lt hb, checkBlock_of_not_lt hb']
    exact stageFree_raiseFailure .badParameter 2 s x

/-- Each command is a body that the two checks may stand in front of, and the body sets STAGE before anything else. -/
theorem exists_stageFree_body (i : Instr) (hi : i ≠ .srst) :
    ∃ body, StageFree body ∧ ∀ s, exec i s = .next (body s).state := by
  cases i with
  | nop => exact ⟨.goesOn, fun _ x => ⟨x, rfl⟩, exec_nop⟩
  | fmtdec => exact ⟨fmtdecBody, stageFree_of_eq fun _ _ => rfl, exec_fmtdec⟩
  | unmask => exact ⟨unmaskBody, stageFree_checkVersion (stageFree_of_eq fun _ _ => rfl), exec_unmask⟩
  | extract => exact ⟨extractBody, stageFree_checkVersion (stageFree_of_eq fun _ _ => rfl), exec_extract⟩
  | deint => exact ⟨deintBody, stageFree_checkVersion (stageFree_of_eq fun _ _ => rfl), exec_deint⟩
  | synd b =>
    exact ⟨syndBody b, stageFree_checkVersion (stageFree_checkBlock (stageFree_of_eq fun _ _ => rfl) b), exec_synd b⟩
  | rscor b =>
    exact ⟨rscorBody b, stageFree_checkVersion (stageFree_checkBlock (stageFree_of_eq fun _ _ => rfl) b), exec_rscor b⟩
  | rsall => exact ⟨rsallBody, stageFree_checkVersion (stageFree_of_eq fun _ _ => rfl), exec_rsall⟩
  | run => exact ⟨runBody, stageFree_checkVersion (stageFree_of_eq fun _ _ => rfl), exec_run⟩
  | srst => exact absurd rfl hi

/-! ## The obligations -/

/-- Settles O60: SRST overwrites STAGE, and the other commands are bodies that do not read it. -/
theorem stageIsNeverRead : Obligations.StageIsNeverRead := by
  intro i s x
  by_cases hi : i = .srst
  · subst hi
    exact ⟨_, _, rfl, rfl, rfl⟩
  · obtain ⟨body, free, run⟩ := exists_stageFree_body i hi
    obtain ⟨y, same⟩ := free s x
    exact ⟨_, _, run s, run (setStage x s), by rw [same]; rfl⟩

/-- Settles O14: the check of the version stands in front of all seven bodies. -/
theorem illegalVersionIsABadParameter : Obligations.IllegalVersionIsABadParameter := by
  rintro s i illegal (rfl | rfl | rfl | ⟨b, rfl⟩ | ⟨b, rfl⟩ | rfl | rfl)
  · rw [exec_unmask, unmaskBody_of_not_legal illegal]
    rfl
  · rw [exec_extract, extractBody_of_not_legal illegal]
    rfl
  · rw [exec_deint, deintBody_of_not_legal illegal]
    rfl
  · rw [exec_synd, syndBody_of_not_legal illegal]
    rfl
  · rw [exec_rscor, rscorBody_of_not_legal illegal]
    rfl
  · rw [exec_rsall, rsallBody_of_not_legal illegal]
    rfl
  · rw [exec_run, runBody_of_not_legal illegal]
    rfl

/-- Settles O15: the check of the block operand stands in front of the two bodies. -/
theorem missingBlockIsABadParameter : Obligations.MissingBlockIsABadParameter := by
  intro s b legal missing
  rw [exec_synd, exec_rscor, syndBody_of_missing legal (Nat.not_lt.2 missing),
    rscorBody_of_missing legal (Nat.not_lt.2 missing)]
  exact ⟨rfl, rfl⟩

/-- Settles O59: each command writes the places of its body, RUN those of its five stages, SRST all of them. -/
theorem onlyTheNamedCommandsWrite : Obligations.OnlyTheNamedCommandsWrite := by
  intro i s t h
  cases i with
  | nop =>
    cases h
    simp
  | fmtdec =>
    cases h
    obtain ⟨st, w, lv, m, va, co, e, i, frame, failure⟩ := fmtdecBody_writes s
    rw [frame]
    simpa using failure
  | unmask =>
    cases h
    obtain ⟨st, g, e, i, frame, failure⟩ := unmaskBody_writes s
    rw [frame]
    simpa using failure
  | extract =>
    cases h
    obtain ⟨st, m, n, e, i, frame, failure⟩ := extractBody_writes s
    rw [frame]
    simpa using failure
  | deint =>
    cases h
    obtain ⟨st, m, v, e, i, frame, failure⟩ := deintBody_writes s
    rw [frame]
    simpa using failure
  | synd b =>
    cases h
    obtain ⟨st, m, v, e, i, frame, failure⟩ := syndBody_writes b s
    rw [frame]
    simpa [← and_or_left] using failure
  | rscor b =>
    cases h
    obtain ⟨st, m, n, v, e, i, frame, failure⟩ := rscorBody_writes b s
    rw [frame]
    simpa [← and_or_left] using failure
  | rsall =>
    cases h
    obtain ⟨st, m, n, v, e, i, frame, failure⟩ := rsallBody_writes s
    rw [frame]
    simpa using failure
  | run =>
    cases h
    obtain ⟨version, fmtRaw0, fmtRaw1, seed, params, pending, reply, failure⟩ := keepsInputs_runBody s
    simp [version, fmtRaw0, fmtRaw1, seed, params, pending, reply]
    tauto
  | srst =>
    cases h
    simp

end Sys2Proof.Proofs
end

section
/-!
SUPPORT AND PROOFS. The invariant of reachable states under each operation on the state, under the loops of the commands,
under each command and under each act of the host, and the statements about it (10_state.md R42, R44).
-/

namespace Sys2Proof.Proofs

open Sys2Proof.Machine Sys2Proof.Claims Sys2Proof.Safety

/-! ## A memory in canonical form within its size -/

/-- A memory in canonical form, of that size, with values below `bound` (20_memory.md R55 to R58). -/
def Sound (size bound : Nat) (m : Memory) : Prop := Memory.wf m ∧ inMemory size bound m

theorem sound_nil (size bound : Nat) : Sound size bound [] := ⟨.nil, fun _ h => absurd h List.not_mem_nil⟩

theorem Sound.write {size bound : Nat} {m : Memory} (h : Sound size bound m) {a : Nat} {v : Byte} (ha : a < size)
    (hv : v.toNat < bound) : Sound size bound (Memory.write m a v) := by
  refine ⟨Memory.write_wf h.1 a v, fun e he => ?_⟩
  rcases Memory.mem_write he with rfl | he
  · exact ⟨ha, hv⟩
  · exact h.2 e he

/-- The invariant by its parts. -/
theorem inv_iff (s : State) :
    Safety.Inv s ↔ legalErr s.err = true ∧ s.stage.toNat ≤ 5 ∧ (∀ b < 128, legalBstat (bstatOf s b) = true) ∧
      Sound 65536 3 s.grid ∧ Sound 4096 256 s.cw ∧ Sound 32768 256 s.blk ∧ Sound 4096 256 s.syn := by
  simp only [Safety.Inv, Sound, and_assoc]

/-! ## The operations on the state -/

theorem legalErr_failCode {k : FailKind} (raised : k ≠ .geometryNotFound ∧ k ≠ .versionUndecodable) :
    legalErr (failCode k) = true := by
  cases k with
  | geometryNotFound => exact absurd rfl raised.1
  | versionUndecodable => exact absurd rfl raised.2
  | formatUndecodable | moduleTraversalFailure | blockUncorrectable | illegalCommand | badParameter => decide

theorem legalBstat_bstatFixed {n : Nat} (h : n ≤ 16) : legalBstat (bstatFixed n) = true := by
  interval_cases n <;> decide

theorem toNat_cellCode_lt (c : Cell) : (cellCode c).toNat < 3 := by cases c <;> decide

theorem bstatOf_eq_of_bstat_eq {s t : State} (h : t.bstat = s.bstat) (b : Nat) : bstatOf t b = bstatOf s b := by
  rw [bstatOf, h, bstatOf]

section
variable {s : State} (h : Safety.Inv s)
include h

/-- A change outside the places the invariant speaks of. -/
theorem inv_of_eq {t : State} (err : t.err = s.err) (stage : t.stage = s.stage) (grid : t.grid = s.grid)
    (cw : t.cw = s.cw) (blk : t.blk = s.blk) (syn : t.syn = s.syn) (bstat : t.bstat = s.bstat) : Safety.Inv t := by
  simpa only [inv_iff, err, stage, grid, cw, blk, syn, bstatOf_eq_of_bstat_eq bstat] using h

theorem inv_setStage {n : BitVec 3} (hn : n.toNat ≤ 5) : Safety.Inv (setStage n s) := by
  obtain ⟨err, -, bstat, memories⟩ := (inv_iff s).1 h
  exact (inv_iff _).2 ⟨err, hn, bstat, memories⟩

theorem inv_recordFailure {k : FailKind} (raised : k ≠ .geometryNotFound ∧ k ≠ .versionUndecodable) (n : Nat) :
    Safety.Inv (recordFailure k n s) := by
  obtain ⟨-, rest⟩ := (inv_iff s).1 h
  exact (inv_iff _).2 ⟨legalErr_failCode raised, rest⟩

theorem inv_setGridCell {x y : Nat} (hx : x < 256) (hy : y < 256) (c : Cell) : Safety.Inv (setGridCell x y c s) := by
  obtain ⟨err, stage, bstat, grid, memories⟩ := (inv_iff s).1 h
  exact (inv_iff _).2 ⟨err, stage, bstat, grid.write (by omega) (toNat_cellCode_lt c), memories⟩

theorem inv_setCw {p : Nat} (hp : p < 4096) (v : Byte) : Safety.Inv (setCw p v s) := by
  obtain ⟨err, stage, bstat, grid, cw, memories⟩ := (inv_iff s).1 h
  exact (inv_iff _).2 ⟨err, stage, bstat, grid, cw.write hp v.isLt, memories⟩

theorem inv_setBlkByte {b j : Nat} (hb : b < 128) (hj : j < 256) (v : Byte) : Safety.Inv (setBlkByte b j v s) := by
  obtain ⟨err, stage, bstat, grid, cw, blk, syn⟩ := (inv_iff s).1 h
  exact (inv_iff _).2 ⟨err, stage, bstat, grid, cw, blk.write (by omega) v.isLt, syn⟩

theorem inv_setSynByte {b i : Nat} (hb : b < 128) (hi : i < 32) (v : Byte) : Safety.Inv (setSynByte b i v s) := by
  obtain ⟨err, stage, bstat, grid, cw, blk, syn⟩ := (inv_iff s).1 h
  exact (inv_iff _).2 ⟨err, stage, bstat, grid, cw, blk, syn.write (by omega) v.isLt⟩

theorem inv_setBstat (b : Nat) {v : Byte} (hv : legalBstat v = true) : Safety.Inv (setBstat b v s) := by
  obtain ⟨err, stage, bstat, memories⟩ := (inv_iff s).1 h
  refine (inv_iff _).2 ⟨err, stage, fun b' hb' => ?_, memories⟩
  rw [bstatOf_setBstat]
  split
  · exact hv
  · exact bstat b' hb'

theorem inv_clearBstat : Safety.Inv (clearBstat s) := by
  obtain ⟨err, stage, -, memories⟩ := (inv_iff s).1 h
  refine (inv_iff _).2 ⟨err, stage, fun b _ => ?_, memories⟩
  rw [bstatOf_clearBstat]
  decide

theorem inv_setBlkFrom {b : Nat} (hb : b < 128) {j : Nat} {vs : List Byte} (fits : j + vs.length ≤ 256) :
    Safety.Inv (setBlkFrom b j vs s) := by
  induction vs generalizing j s with
  | nil => exact h
  | cons v vs ih =>
    rw [List.length_cons] at fits
    exact ih (inv_setBlkByte h hb (by omega) v) (by omega)

theorem inv_setSynFrom {b : Nat} (hb : b < 128) {i : Nat} {vs : List Byte} (fits : i + vs.length ≤ 32) :
    Safety.Inv (setSynFrom b i vs s) := by
  induction vs generalizing i s with
  | nil => exact h
  | cons v vs ih =>
    rw [List.length_cons] at fits
    exact ih (inv_setSynByte h hb (by omega) v) (by omega)

end

/-- What a reset leaves meets the invariant, whatever it found: registers and statuses are 0, the memories list nothing
(10_state.md R42). -/
theorem inv_resetBlock (s : State) : Safety.Inv (resetBlock s) := by
  refine (inv_iff _).2 ⟨by rw [resetBlock_err]; decide, by rw [resetBlock_stage]; decide, fun b _ => ?_, sound_nil _ _,
    sound_nil _ _, sound_nil _ _, sound_nil _ _⟩
  have clear : bstatOf (resetBlock s) b = 0 := bstatOf_clearBstat (resetBlock s) b
  rw [clear]
  decide

/-! ## The loops of the commands -/

/-- The walk stores codewords below `T`, which fit `CW` (43_extract.md R112). -/
theorem sound_walkBit {t : Nat} (ht : t ≤ 4096) {w : Walk} (h : Sound 4096 256 w.cw) (dark : Bool) :
    Sound 4096 256 (walkBit t w dark).cw := by
  by_cases eighth : w.nbits + 1 = 8
  · rw [walkBit_of_eighth eighth]
    dsimp only
    split
    · next stores => exact h.write (stores.trans_le ht) (BitVec.isLt _)
    · exact h
  · rw [walkBit_of_room eighth]
    exact h

theorem sound_walk {s : State} {t : Nat} (ht : t ≤ 4096) (h : Sound 4096 256 s.cw) : Sound 4096 256 (walk s t).cw := by
  rw [walk_eq_foldl_dataBits]
  induction dataBits s (moduleCount s) fun _ _ => false using List.reverseRecOn with
  | nil => exact h
  | append_singleton bits dark ih =>
    rw [List.foldl_concat]
    exact sound_walkBit ht ih dark

theorem inv_unmaskCell {s : State} (h : Safety.Inv s) {xy : Nat × Nat} (hx : xy.1 < 256) (hy : xy.2 < 256) :
    Safety.Inv (unmaskCell s xy) := by
  rw [unmaskCell_eq]
  split
  · exact inv_setGridCell h hx hy _
  · exact h

theorem inv_foldl_unmaskCell {l : List (Nat × Nat)} (inside : ∀ xy ∈ l, xy.1 < 256 ∧ xy.2 < 256) {s : State}
    (h : Safety.Inv s) :
    Safety.Inv (l.foldl unmaskCell s) := by
  induction l generalizing s with
  | nil => exact h
  | cons xy l ih =>
    obtain ⟨⟨hx, hy⟩, inside⟩ := List.forall_mem_cons.1 inside
    exact ih inside (inv_unmaskCell h hx hy)

/-- The loop of DEINT writes at the places of its turns, which lie in `BLK` (44_deinterleave.md R121). -/
theorem inv_foldl_dealByte {c : CapRecord} (blocks : 0 < blockCount c) (few : blockCount c ≤ 128)
    (short : ∀ b < blockCount c, blockTotal c b ≤ 255) {s : State} (h : Safety.Inv s) (n : Nat) :
    Safety.Inv ((List.range (dealtBefore c n).length).foldl (dealByte c)
      { b := 0, fill := List.replicate (blockCount c) 0, s := s }).s := by
  induction n with
  | zero => exact h
  | succ n ih =>
    by_cases deals : Deals c n
    · have block := Nat.mod_lt n blocks
      rw [dealtBefore_succ_of_deals deals, List.length_append, List.length_singleton, List.range_succ, List.foldl_concat,
        (dealt_foldl_dealByte blocks short s n).dealByte_eq blocks deals]
      exact inv_setBlkByte ih (block.trans_le few) (deals.trans (Nat.lt_succ_of_le (short _ block))) _
    · rw [dealtBefore_succ_of_not_deals deals]
      exact ih

/-! ## The bodies of the commands -/

theorem inv_badParameter {s : State} (h : Safety.Inv s) (n : Nat) : Safety.Inv (recordFailure .badParameter n s) :=
  inv_recordFailure h (by decide) n

section
variable {s : State} (h : Safety.Inv s)
include h

theorem inv_fmtdecBody : Safety.Inv (fmtdecBody s).state := by
  have started := inv_setStage h (n := 1) (by decide)
  have accepted (c : BitVec 1) (k : Nat) : Safety.Inv (fmtAccept c k (setStage 1 s)) :=
    inv_of_eq started rfl rfl rfl rfl rfl rfl rfl
  dsimp only [fmtdecBody]
  split
  case h_1 k _ => exact accepted 0 k
  case h_2 =>
    split
    case h_1 k _ => exact accepted 1 k
    case h_2 => exact inv_recordFailure started (by decide) 0

theorem inv_unmaskBody : Safety.Inv (unmaskBody s).state := by
  by_cases legal : LegalVersion s
  · rw [unmaskBody_of_legal legal]
    refine inv_foldl_unmaskCell (fun xy hxy => ?_) (inv_setStage h (n := 2) (by decide))
    obtain ⟨column, row⟩ := mem_gridCells.1 hxy
    exact ⟨column.trans (moduleCount_lt legal), row.trans (moduleCount_lt legal)⟩
  · rw [unmaskBody_of_not_legal legal]
    exact inv_badParameter h 1

theorem inv_extractBody : Safety.Inv (extractBody s).state := by
  by_cases legal : LegalVersion s
  · obtain ⟨err, -, bstat, grid, cw, memories⟩ := (inv_iff s).1 h
    have fits : totalCodewords (capOf s) ≤ 4096 := (capRecord_bounds (capOf_wf (validVersion_of_legal legal))).2.2.1
    have stored : Safety.Inv (extracted s) :=
      (inv_iff _).2 ⟨err, (by decide : (3 : BitVec 3).toNat ≤ 5), bstat, grid, sound_walk fits cw, memories⟩
    rw [extractBody_of_legal legal]
    dsimp only
    split
    · exact inv_recordFailure stored (by decide) _
    · exact stored
  · rw [extractBody_of_not_legal legal]
    exact inv_badParameter h 1

theorem inv_deintBody : Safety.Inv (deintBody s).state := by
  by_cases legal : LegalVersion s
  · have few := (capRecord_bounds (capOf_wf (validVersion_of_legal legal))).2.1
    have loop := inv_foldl_dealByte (capOf_blocks legal).1 few (capOf_blocks legal).2
      (inv_clearBstat (inv_setStage h (n := 4) (by decide))) (256 * blockCount (capOf s))
    rw [dealtBefore_eq_dealOrder, length_dealOrder_capOf legal] at loop
    rw [deintBody_of_legal legal]
    exact loop
  · rw [deintBody_of_not_legal legal]
    exact inv_badParameter h 1

theorem inv_withSyndromes (legal : LegalVersion s) {b : Nat} (hb : b < blockCount (capOf s)) :
    Safety.Inv (withSyndromes s b) := by
  obtain ⟨block, -, capacity⟩ := block_bounds legal hb
  exact inv_setSynFrom h block (by rw [length_syndromes, Nat.zero_add]; exact capacity)

/-- The correction of a block keeps the invariant: a moved block has at most `t` bytes changed, and `t` is at most 16
(45_reed_solomon.md R134). -/
theorem inv_correctBlock (legal : LegalVersion s) {b : Nat} (hb : b < blockCount (capOf s)) :
    Safety.Inv (correctBlock b s).state := by
  obtain ⟨block, total, capacity⟩ := block_bounds legal hb
  have stored := inv_withSyndromes h legal hb
  rcases correctBlock_cases b s with ⟨-, run⟩ | ⟨-, c, found, run⟩ | ⟨-, -, run⟩
  · rw [run]
    exact inv_setBstat stored b (by decide)
  · have length : c.length = blockTotal (capOf s) b := (nearestMember_mem found).2.trans (length_received s b)
    have near : dist (blkRow s b (blockTotal (capOf s) b)) c ≤ capacityOf s b := nearestMember_dist_le found
    rw [run]
    exact inv_setBstat (inv_setBlkFrom stored block (by omega)) b (legalBstat_bstatFixed (by omega))
  · rw [run]
    exact inv_recordFailure (inv_setBstat stored b (by decide)) (by decide) b

theorem inv_syndBody (b : Nat) : Safety.Inv (syndBody b s).state := by
  by_cases legal : LegalVersion s
  · by_cases hb : b < blockCount (capOf s)
    · rw [syndBody_of_legal legal hb]
      refine inv_setBstat (inv_withSyndromes (s := setStage 5 s) (inv_setStage h (n := 5) (by decide)) legal hb) b ?_
      split <;> decide
    · rw [syndBody_of_missing legal hb]
      exact inv_badParameter h 2
  · rw [syndBody_of_not_legal legal]
    exact inv_badParameter h 1

theorem inv_rscorBody (b : Nat) : Safety.Inv (rscorBody b s).state := by
  by_cases legal : LegalVersion s
  · by_cases hb : b < blockCount (capOf s)
    · rw [rscorBody_of_legal legal hb]
      exact inv_correctBlock (s := setStage 5 s) (inv_setStage h (n := 5) (by decide)) legal hb
    · rw [rscorBody_of_missing legal hb]
      exact inv_badParameter h 2
  · rw [rscorBody_of_not_legal legal]
    exact inv_badParameter h 1

/-- The loop of RSALL: the blocks before leave the version and the record as they are. -/
theorem inv_correctBlocks (legal : LegalVersion s) {n : Nat} (hn : n ≤ blockCount (capOf s)) :
    Safety.Inv (correctBlocks (List.range n) s).state := by
  induction n with
  | zero => exact h
  | succ n ih =>
    have before := correctionsEnd_correctBlocks legal (Nat.le_of_succ_le hn)
    have inv := ih (Nat.le_of_succ_le hn)
    rw [List.range_succ, correctBlocks_append]
    generalize correctBlocks (List.range n) s = f at before inv ⊢
    cases before with
    | stopped b t u => exact inv
    | corrected t done =>
      have legal' : LegalVersion t := by
        rw [done.frame]
        exact legal
      rw [Flow.goesOn_andThen, correctBlocks_singleton]
      exact inv_correctBlock inv legal' (done.capOf_eq ▸ hn)

theorem inv_rsallBody : Safety.Inv (rsallBody s).state := by
  by_cases legal : LegalVersion s
  · rw [rsallBody_of_legal legal]
    exact inv_correctBlocks (s := setStage 5 s) (inv_setStage h (n := 5) (by decide)) legal le_rfl
  · rw [rsallBody_of_not_legal legal]
    exact inv_badParameter h 1

end

theorem inv_runBody {s : State} (h : Safety.Inv s) : Safety.Inv (runBody s).state :=
  runBody_relation (R := fun s t => Safety.Inv s → Safety.Inv t) (fun _ _ _ first second h => second (first h))
    (fun _ h => inv_badParameter h 1) (fun _ => inv_fmtdecBody) (fun _ => inv_unmaskBody) (fun _ => inv_extractBody)
    (fun _ => inv_deintBody) (fun _ => inv_rsallBody) s h

/-! ## Commands, acts of the host and steps -/

theorem inv_exec {i : Instr} {s t : State} (h : Safety.Inv s) (run : exec i s = .next t) : Safety.Inv t := by
  cases i with
  | nop =>
    cases run
    exact h
  | fmtdec =>
    cases run
    exact inv_fmtdecBody h
  | unmask =>
    cases run
    exact inv_unmaskBody h
  | extract =>
    cases run
    exact inv_extractBody h
  | deint =>
    cases run
    exact inv_deintBody h
  | synd b =>
    cases run
    exact inv_syndBody h b
  | rscor b =>
    cases run
    exact inv_rscorBody h b
  | rsall =>
    cases run
    exact inv_rsallBody h
  | run =>
    cases run
    exact inv_runBody h
  | srst =>
    cases run
    exact inv_resetBlock s

end Sys2Proof.Proofs
end

section
/-!
SUPPORT AND PROOFS. The acts of the host as steps, what each of them can do, and the statements about steps, reset and
the invariant (10_state.md R38, R42, R44; 46_sequencing.md R141, R144; 60_exceptions.md R160, R162; 70_reset_and_hazards.md
R168, R169, R178).
-/

namespace Sys2Proof.Proofs

open Sys2Proof.Machine Sys2Proof.Claims Sys2Proof.Safety

/-! ## The acts of the host as steps -/

theorem addrLow_lt (a : Addr) : addrLow a < 65536 := Nat.mod_lt _ (by decide)

theorem readAt_toNat (s : State) (a : Addr) : readAt s a.toNat = hostRead s a := by
  rw [readAt, BitVec.ofNat_toNat, BitVec.setWidth_eq]

/-- What the host still has to do is no part of what it reads. -/
theorem hostRead_pending (s : State) (rest : List HostEvent) (a : Addr) :
    hostRead { s with pending := rest } a = hostRead s a := rfl

theorem step_of_read {s : State} {a : Addr} {rest : List HostEvent} (h : s.pending = .read a :: rest) :
    step s = .next { s with pending := rest, reply := some (hostRead s a) } := by
  rw [step_of_pending_cons h, serve, hostRead_pending]

theorem step_of_reset {s : State} {rest : List HostEvent} (h : s.pending = .reset :: rest) :
    step s = .next (resetBlock { s with pending := rest, reply := none }) := step_of_pending_cons h

/-- What a step is, by the oldest pending act: the block waits, answers a read, dispatches a word written to `CMD`,
stores a write elsewhere, or is reset (20_memory.md R60, R61; 70_reset_and_hazards.md R168). -/
inductive Steps (s : State) : Host.Outcome State Fault Refusal → Prop where
  | waits (h : s.pending = []) : Steps s (.next s)
  | reads (a : Addr) (rest : List HostEvent) (h : s.pending = .read a :: rest) :
      Steps s (.next { s with pending := rest, reply := some (hostRead s a) })
  | commands (w : Word) (rest : List HostEvent) (h : s.pending = .write 0x00001 w :: rest) :
      Steps s (command w { s with pending := rest, reply := none })
  | writes (a : Addr) (v : Word) (rest : List HostEvent) (h : s.pending = .write a v :: rest) :
      Steps s (.next (writeElement (addrSpace a) (addrLow a) v { s with pending := rest, reply := none }))
  | resets (rest : List HostEvent) (h : s.pending = .reset :: rest) :
      Steps s (.next (resetBlock { s with pending := rest, reply := none }))

theorem steps_step (s : State) : Steps s (step s) := by
  match h : s.pending with
  | [] =>
    rw [step_of_pending_nil h]
    exact .waits h
  | .read a :: rest =>
    rw [step_of_read h]
    exact .reads a rest h
  | .write a v :: rest =>
    by_cases cmd : a = 0x00001
    · subst cmd
      rw [step_of_command h]
      exact .commands v rest h
    · rw [step_of_write h cmd]
      exact .writes a v rest h
  | .reset :: rest =>
    rw [step_of_reset h]
    exact .resets rest h

/-- What a command word does: the gate drops it, it is executed, or it is illegal (46_sequencing.md R141). -/
inductive Dispatches (w : Word) (s : State) : Host.Outcome State Fault Refusal → Prop where
  | dropped : Dispatches w s (.next s)
  | executed (i : Instr) (h : decode w = .ok i) : Dispatches w s (exec i s)
  | illegal : Dispatches w s (.next (recordFailure .illegalCommand (w.extractLsb' 0 16).toNat s))

theorem dispatches_command (w : Word) (s : State) : Dispatches w s (command w s) := by
  by_cases gate : s.err ≠ 0 ∧ w ≠ 0x0000000F
  · rw [command_of_gate gate.1 gate.2]
    exact .dropped
  · rw [command_of_open (by tauto)]
    split
    · next i h => exact .executed i h
    · exact .illegal

/-- Every command answers a next state (70_reset_and_hazards.md R178). -/
theorem exists_exec_eq_next (i : Instr) (s : State) : ∃ t, exec i s = .next t := by
  cases i <;> exact ⟨_, rfl⟩

/-! ## A write outside `CMD` -/

/-- A host write outside `CMD` records no failure and changes no table (20_memory.md R61, R62). -/
theorem writeElement_keeps (space low : Nat) (v : Word) (s : State) :
    (writeElement space low v s).err = s.err ∧ (writeElement space low v s).errInfo = s.errInfo ∧
      (writeElement space low v s).params = s.params := by
  have register : (writeReg low v s).err = s.err ∧ (writeReg low v s).errInfo = s.errInfo ∧
      (writeReg low v s).params = s.params := by
    unfold writeReg
    split <;> exact ⟨rfl, rfl, rfl⟩
  unfold writeElement
  split
  case h_1 => exact register
  case h_2 => exact ⟨rfl, rfl, rfl⟩
  case h_3 | h_4 => split <;> exact ⟨rfl, rfl, rfl⟩
  case h_5 => exact ⟨rfl, rfl, rfl⟩

/-- A host write stores within the memories and legal cells only (20_memory.md R55 to R57; 30_encoding.md R80). -/
theorem inv_writeElement {s : State} (h : Safety.Inv s) (space : Nat) {low : Nat} (hlow : low < 65536) (v : Word) :
    Safety.Inv (writeElement space low v s) := by
  have register : Safety.Inv (writeReg low v s) := by
    unfold writeReg
    split <;> exact inv_of_eq h rfl rfl rfl rfl rfl rfl rfl
  unfold writeElement
  split
  case h_1 => exact register
  case h_2 => exact inv_setGridCell h (Nat.mod_lt _ (by decide)) (by omega) _
  case h_3 =>
    split
    · next hp => exact inv_setCw h hp _
    · exact h
  case h_4 =>
    split
    · next hb => exact inv_setBlkByte h (by omega) (Nat.mod_lt _ (by decide)) _
    · exact h
  case h_5 => exact h

/-! ## Relations that every step meets -/

/-- A transitive relation that the commands, an illegal word, a write outside `CMD`, the reset and a change of the host's
own fields meet, every step meets. -/
theorem step_relation {R : State → State → Prop} (trans : ∀ s t u, R s t → R t u → R s u)
    (served : ∀ s rest reply, R s { s with pending := rest, reply := reply })
    (commands : ∀ i s t, exec i s = .next t → R s t) (illegal : ∀ s n, R s (recordFailure .illegalCommand n s))
    (writes : ∀ s a v, R s (writeElement (addrSpace a) (addrLow a) v s)) (reset : ∀ s, R s (resetBlock s))
    {s t : State} (run : step s = .next t) : R s t := by
  have steps := steps_step s
  rw [run] at steps
  generalize outcome : Host.Outcome.next t = o at steps
  cases steps with
  | waits =>
    cases outcome
    exact served s s.pending s.reply
  | reads a rest =>
    cases outcome
    exact served s rest _
  | commands w rest =>
    refine trans _ _ _ (served s rest none) ?_
    have dispatches := dispatches_command w { s with pending := rest, reply := none }
    rw [← outcome] at dispatches
    generalize outcome' : Host.Outcome.next t = o at dispatches
    cases dispatches with
    | dropped =>
      cases outcome'
      exact served _ rest none
    | executed i => exact commands i _ t outcome'.symm
    | illegal =>
      cases outcome'
      exact illegal _ _
  | writes a v rest =>
    cases outcome
    exact trans _ _ _ (served s rest none) (writes _ a v)
  | resets rest =>
    cases outcome
    exact trans _ _ _ (served s rest none) (reset _)

theorem params_of_exec {i : Instr} {s t : State} (run : exec i s = .next t) : t.params = s.params := by
  obtain ⟨-, -, -, -, -, -, -, -, -, -, params, -, -⟩ := onlyTheNamedCommandsWrite i s t run
  exact params

/-! ## The obligations -/

/-- Settles O56: the invariant is kept by each operation, so by each loop, body and act of the host. -/
theorem everyStepKeepsTheInvariant : Obligations.EveryStepKeepsTheInvariant := fun _ _ h run =>
  step_relation (R := fun s t => Safety.Inv s → Safety.Inv t) (fun _ _ _ first second h => second (first h))
    (fun _ _ _ h => inv_of_eq h rfl rfl rfl rfl rfl rfl rfl) (fun _ _ _ run h => inv_exec h run)
    (fun _ n h => inv_recordFailure h (by decide) n) (fun _ a v h => inv_writeElement h _ (addrLow_lt a) v)
    (fun s _ => inv_resetBlock s) run h

/-- Settles O57: the registers and statuses are 0 and the memories list nothing. -/
theorem resetMeetsTheInvariant : Obligations.ResetMeetsTheInvariant :=
  inv_of_eq (inv_resetBlock State.reset) rfl rfl rfl rfl rfl rfl rfl

/-- Settles O58: no command writes the parameters, and no other act of the host does. -/
theorem noStepChangesTheTables : Obligations.NoStepChangesTheTables := fun _ _ run =>
  step_relation (R := fun s t => t.params = s.params) (fun _ _ _ first second => second.trans first)
    (fun _ _ _ => rfl) (fun _ _ _ => params_of_exec) (fun _ _ => rfl)
    (fun s a v => (writeElement_keeps (addrSpace a) (addrLow a) v s).2.2) (fun _ => rfl) run

/-- Settles O16: the gate drops every word but SRST's, and no other act but the reset writes the failure. -/
theorem failureStaysUntilSrstOrReset : Obligations.FailureStaysUntilSrstOrReset := by
  intro s t failed run notReset notSrst
  have steps := steps_step s
  rw [run] at steps
  generalize outcome : Host.Outcome.next t = o at steps
  cases steps with
  | waits | reads =>
    cases outcome
    exact ⟨rfl, rfl⟩
  | commands w rest h =>
    have other : w ≠ 0x0000000F := by
      rintro rfl
      exact notSrst rest h
    cases outcome.trans (command_of_gate (s := { s with pending := rest, reply := none }) failed other)
    exact ⟨rfl, rfl⟩
  | writes a v rest =>
    cases outcome
    obtain ⟨err, info, -⟩ := writeElement_keeps (addrSpace a) (addrLow a) v { s with pending := rest, reply := none }
    exact ⟨err, info⟩
  | resets rest h => exact absurd h (notReset rest)

/-- Settles O13: each act of the host has an outcome in the state, and so has each command. -/
theorem everyStepAnswersANextState : Obligations.EveryStepAnswersANextState := by
  intro s
  have steps := steps_step s
  generalize step s = o at steps
  cases steps with
  | waits | reads | writes | resets => exact ⟨_, rfl⟩
  | commands w rest =>
    have dispatches := dispatches_command w { s with pending := rest, reply := none }
    generalize command w { s with pending := rest, reply := none } = o at dispatches
    cases dispatches with
    | dropped | illegal => exact ⟨_, rfl⟩
    | executed i => exact exists_exec_eq_next i _

/-- Settles O12. -/
theorem blockWaitsForTheHost : Obligations.BlockWaitsForTheHost := fun _ => step_of_pending_nil

/-- Settles O6: SRST is the reset of the block. -/
theorem srstLeavesTheResetState : Obligations.SrstLeavesTheResetState := fun s => ⟨resetBlock s, rfl, rfl⟩

/-- Settles O7: the reset from outside is the reset of the block, after its act is taken from the queue. -/
theorem resetFromOutsideLeavesTheResetState : Obligations.ResetFromOutsideLeavesTheResetState :=
  fun _ _ h => ⟨_, step_of_reset h, rfl⟩

/-- A word that decodes passes the gate while no failure is recorded, and SRST's word always does
(46_sequencing.md R141). -/
theorem command_of_decode_ok {w : Word} {i : Instr} {s : State} (h : decode w = .ok i)
    (passes : s.err = 0 ∨ w = 0x0000000F) : command w s = exec i s := by
  rw [command_of_open passes, h]

/-- Settles O9: the word of the queue is dispatched, and the placed word is the encoding of the command. -/
theorem stepRunsTheDecodedCommand : Obligations.StepRunsTheDecodedCommand := by
  refine ⟨fun s w rest i h decoded passes => ?queue, fun s i wf clear => ?placed⟩
  case queue =>
    rw [step_of_command h]
    exact command_of_decode_ok decoded passes
  case placed =>
    have word : BitVec.ofNat 32 ((encode i).toNat % 2 ^ 32) = encode i := by
      rw [Nat.mod_eq_of_lt (encode i).isLt, BitVec.ofNat_toNat, BitVec.setWidth_eq]
    rw [State.withFetchWord, word]
    rw [step_of_command (s := queueCommand (encode i) s) rfl]
    exact command_of_decode_ok (decodeOfEncodeIsTheCommand i wf) (.inl clear)

/-- Settles O10: the gate. -/
theorem failureGateDropsEveryOtherCommand : Obligations.FailureGateDropsEveryOtherCommand := by
  intro s w rest h failed other
  rw [step_of_command h]
  exact command_of_gate failed other

end Sys2Proof.Proofs
end

section
/-!
SUPPORT AND PROOFS. What the host reads at each place, what it stores at each place that stores, and the statements about
reads, writes and the read-only tables (10_state.md R15 to R29, R42; 15_rom_tables.md R45, R46; 20_memory.md R53 to R61).
-/

namespace Sys2Proof.Proofs

open Sys2Proof.Machine Sys2Proof.Claims

/-! ## The space and the element select of an address -/

/-- A read at a place by its space and its element select (20_memory.md R53). -/
theorem readAt_space (s : State) {space low : Nat} (hspace : space < 16) (hlow : low < 65536) :
    readAt s (65536 * space + low) = readElement s space low := by
  rw [readAt_eq_readElement s (by omega), show (65536 * space + low) / 65536 = space by omega,
    show (65536 * space + low) % 65536 = low by omega]

theorem readAt_cw (s : State) {p : Nat} (hp : p < 4096) : readAt s (0x20000 + p) = (readCw s p).setWidth 32 :=
  (readAt_space s (space := 2) (by decide) (by omega)).trans (if_pos hp)

theorem readAt_blk (s : State) {b j : Nat} (hb : b < 128) (hj : j < 256) :
    readAt s (0x30000 + 256 * b + j) = (blkByte s b j).setWidth 32 := by
  rw [Nat.add_assoc]
  exact (readAt_space s (space := 3) (by decide) (by omega)).trans (if_pos (by omega))

theorem readAt_syn (s : State) {b i : Nat} (hb : b < 128) (hi : i < 32) :
    readAt s (0x40000 + 32 * b + i) = (synByte s b i).setWidth 32 := by
  rw [Nat.add_assoc]
  exact (readAt_space s (space := 4) (by decide) (by omega)).trans (if_pos (by omega))

theorem readAt_bstat (s : State) {b : Nat} (hb : b < 128) : readAt s (0x50000 + b) = (bstatOf s b).setWidth 32 :=
  (readAt_space s (space := 5) (by decide) (by omega)).trans (if_pos hb)

theorem readAt_gfexp (s : State) {e : Nat} (he : e < 256) :
    readAt s (0x80000 + e) = (gfexp s.params.raw e).setWidth 32 :=
  (readAt_space s (space := 8) (by decide) (by omega)).trans (if_pos he)

theorem readAt_gflog (s : State) {a : Nat} (ha : a < 256) :
    readAt s (0x90000 + a) = BitVec.ofNat 32 (gflog s.params.raw (BitVec.ofNat 8 a)) :=
  (readAt_space s (space := 9) (by decide) (by omega)).trans (if_pos ha)

theorem readAt_fmttab (s : State) {k : Nat} (hk : k < 32) :
    readAt s (0xA0000 + k) = (fmtEntry s.params.raw k).setWidth 32 :=
  (readAt_space s (space := 10) (by decide) (by omega)).trans (if_pos hk)

/-- A `CAP` place by its version, level field and field number (20_memory.md R59). -/
theorem readAt_cap (s : State) {v lf f : Nat} (hv1 : 1 ≤ v) (hv2 : v ≤ 40) (hlf : lf < 4) (hf : f < 8) :
    readAt s (0xB0000 + 32 * v + 8 * lf + f) =
      (BitVec.ofNat 8 (capField (capRecord s.params.raw v (levelOf (BitVec.ofNat 2 lf))) f)).setWidth 32 := by
  have level : BitVec.ofNat 2 ((32 * v + 8 * lf + f) / 8) = BitVec.ofNat 2 lf := by
    refine BitVec.eq_of_toNat_eq ?_
    rw [BitVec.toNat_ofNat, BitVec.toNat_ofNat]
    omega
  rw [show 0xB0000 + 32 * v + 8 * lf + f = 65536 * 11 + (32 * v + 8 * lf + f) by omega,
    readAt_space s (by decide) (by omega)]
  simp only [readElement, readCap]
  rw [level, show (32 * v + 8 * lf + f) / 32 = v by omega, show (32 * v + 8 * lf + f) % 8 = f by omega,
    if_pos ⟨hv1, hv2⟩]

theorem setWidth_ofNat_of_lt {w n : Nat} (hw : w ≤ 32) (h : n < 2 ^ w) :
    (BitVec.ofNat w n).setWidth 32 = BitVec.ofNat 32 n := by
  have wide : 2 ^ w ≤ 2 ^ 32 := Nat.pow_le_pow_right (by decide) hw
  refine BitVec.eq_of_toNat_eq ?_
  rw [BitVec.toNat_setWidth, BitVec.toNat_ofNat, BitVec.toNat_ofNat, Nat.mod_eq_of_lt h]

/-- The fields of a well-formed record fit a byte (15_rom_tables.md R49). -/
theorem capField_lt {c : CapRecord} (h : CapRecord.wf c = true) (f : Nat) : capField c f < 256 := by
  simp only [CapRecord.wf, Bool.and_eq_true, decide_eq_true_eq] at h
  obtain ⟨⟨⟨⟨⟨⟨⟨h1, h2⟩, h3⟩, h4⟩, h5⟩, h6⟩, h7⟩, h8⟩ := h
  have group2 : c.n2 < 256 ∧ c.k2 < 256 := by
    split at h7 <;> simp only [Bool.and_eq_true, decide_eq_true_eq] at h7 <;> omega
  unfold capField
  split <;> omega

/-! ## The places that store -/

section
variable {s : State} {v : Word} {rest : List HostEvent}

theorem addrSpace_ofNat {space low : Nat} (hspace : space < 16) (hlow : low < 65536) :
    addrSpace (BitVec.ofNat 20 (65536 * space + low)) = space := by
  rw [addrSpace, BitVec.toNat_ofNat]
  omega

theorem addrLow_ofNat {space low : Nat} (hlow : low < 65536) :
    addrLow (BitVec.ofNat 20 (65536 * space + low)) = low := by
  rw [addrLow, BitVec.toNat_ofNat]
  omega

/-- A host write outside the registers, by its space and its element select. -/
theorem step_of_write_space {space low : Nat} (hspace : space < 16) (hlow : low < 65536) (memory : space ≠ 0)
    (h : s.pending = .write (BitVec.ofNat 20 (65536 * space + low)) v :: rest) :
    step s = .next (writeElement space low v { s with pending := rest, reply := none }) := by
  have notCmd : BitVec.ofNat 20 (65536 * space + low) ≠ 0x00001 := by
    intro same
    refine memory ?_
    rw [← addrSpace_ofNat hspace hlow, same]
    rfl
  rw [step_of_write h notCmd, addrSpace_ofNat hspace hlow, addrLow_ofNat hlow]

theorem step_of_write_cw {p : Nat} (hp : p < 4096) (h : s.pending = .write (BitVec.ofNat 20 (0x20000 + p)) v :: rest) :
    step s = .next (setCw p (v.setWidth 8) { s with pending := rest, reply := none }) := by
  rw [step_of_write_space (space := 2) (by decide) (by omega) (by decide) h]
  exact congrArg _ (if_pos hp)

theorem step_of_write_blk {b j : Nat} (hb : b < 128) (hj : j < 256)
    (h : s.pending = .write (BitVec.ofNat 20 (0x30000 + 256 * b + j)) v :: rest) :
    step s = .next (setBlkByte b j (v.setWidth 8) { s with pending := rest, reply := none }) := by
  rw [Nat.add_assoc] at h
  rw [step_of_write_space (space := 3) (by decide) (by omega) (by decide) h]
  have inside : 256 * b + j < 32768 := by omega
  simp only [writeElement, if_pos inside, show (256 * b + j) / 256 = b by omega, show (256 * b + j) % 256 = j by omega]

/-- A host write of a register other than `CMD` (20_memory.md R61). -/
theorem step_of_write_register {n : Nat} (hn : n < 65536) (notCmd : n ≠ 1)
    (h : s.pending = .write (BitVec.ofNat 20 n) v :: rest) :
    step s = .next (writeReg n v { s with pending := rest, reply := none }) := by
  have other : BitVec.ofNat 20 n ≠ 0x00001 := by
    intro same
    refine notCmd ?_
    have value := congrArg BitVec.toNat same
    rw [BitVec.toNat_ofNat, Nat.mod_eq_of_lt (by omega)] at value
    exact value
  have space := addrSpace_ofNat (space := 0) (low := n) (by decide) hn
  have low := addrLow_ofNat (space := 0) (low := n) hn
  rw [Nat.mul_zero, Nat.zero_add] at space low
  rw [step_of_write h other, space, low, writeElement]

end

/-- The low bits of a word as a register of that width reads them. -/
theorem setWidth_setWidth_eq_mod (v : Word) (w : Nat) :
    (v.setWidth w).setWidth 32 = BitVec.ofNat 32 (v.toNat % 2 ^ w) := by
  refine BitVec.eq_of_toNat_eq ?_
  rw [BitVec.toNat_setWidth, BitVec.toNat_setWidth, BitVec.toNat_ofNat]

/-! ## The places that store nothing -/

/-- Only the registers 4 to 8 are read-write (10_state.md R22 to R25). -/
theorem writeReg_of_other {n : Nat} (h : ¬(4 ≤ n ∧ n ≤ 8)) (v : Word) (s : State) : writeReg n v s = s := by
  unfold writeReg
  split
  case h_6 => rfl
  all_goals omega

theorem writeElement_of_storesNothing {a : Addr} (h : StoresNothing a.toNat) (v : Word) (s : State) :
    writeElement (addrSpace a) (addrLow a) v s = s := by
  rcases h with ⟨register, -, other⟩ | ⟨lower, upper⟩ | above
  · have space : addrSpace a = 0 := by unfold addrSpace; omega
    have low : addrLow a = a.toNat := by unfold addrLow; omega
    rw [space, low]
    exact writeReg_of_other other v s
  · have space : addrSpace a = 2 := by unfold addrSpace; omega
    have beyond : ¬addrLow a < 4096 := by unfold addrLow; omega
    rw [space]
    exact if_neg beyond
  · by_cases blk : addrSpace a = 3
    · have beyond : ¬addrLow a < 32768 := by unfold addrLow addrSpace at *; omega
      rw [blk]
      exact if_neg beyond
    · exact writeElement_of_four_le (by unfold addrSpace at *; omega) _ v s

/-! ## The fields of `STATUS` -/

/-- A field above the low part of a word. -/
theorem extractLsb'_append_above {m n : Nat} (hi : BitVec m) (lo : BitVec n) (k len : Nat) :
    (hi ++ lo).extractLsb' (n + k) len = hi.extractLsb' k len := by
  rw [BitVec.extractLsb'_append_eq_of_le (Nat.le_add_right n k), Nat.add_sub_cancel_left]

/-- The field at the low end of a word. -/
theorem extractLsb'_append_low {m n : Nat} (hi : BitVec m) (lo : BitVec n) : (hi ++ lo).extractLsb' 0 n = lo :=
  BitVec.extractLsb'_append_eq_right

/-! ## The obligations -/

/-- Settles O5: the registers are computed, and every other place shows a 0 of the reset state. -/
theorem resetReadsAsTheResetTable : Obligations.ResetReadsAsTheResetTable := by
  have illegal : ¬LegalVersion State.reset := by
    unfold LegalVersion
    decide
  refine ⟨by decide +kernel, fun n lower upper => ?registers, fun b hb => ?bstat, fun k hk => ?out, rfl⟩
  case registers => rw [readAt_register _ upper, readReg_of_fifteen_le (by omega)]
  case bstat =>
    have clear : bstatOf State.reset b = 0 := bstatOf_clearBstat State.reset b
    rw [readAt_bstat _ hb, clear]
    rfl
  case out =>
    rw [readAt_out _ hk, outByte_of_not_legal illegal]
    rfl

/-- Settles O17: a read is answered with the element, and each place reads its element. -/
theorem hostReadChangesNothing : Obligations.HostReadChangesNothing := by
  refine ⟨fun s a rest h => ?_, fun s => ?_⟩
  · rw [step_of_read h, readAt_toNat]
  · have register {n : Nat} (hn : n < 65536) := readAt_register s hn
    refine ⟨register (by decide), register (by decide), register (by decide), register (by decide), register (by decide),
      register (by decide), register (by decide), register (by decide), register (by decide), register (by decide),
      register (by decide), fun x y hx hy => ?grid, fun p hp => readAt_cw s hp, fun b hb j hj => readAt_blk s hb hj,
      fun b hb i hi => readAt_syn s hb hi, fun b hb => readAt_bstat s hb⟩
    case grid =>
      rw [readAt_grid s hx hy]
      cases gridCell s x y <;> rfl

/-- Settles O18: each field stands above the ones before it. -/
theorem statusFieldsStandAtTheirPlaces : Obligations.StatusFieldsStandAtTheirPlaces := by
  intro s
  rw [readAt_register s (n := 2) (by decide)]
  have above := @extractLsb'_append_above
  have low := @extractLsb'_append_low
  exact ⟨low _ _, (above _ _ 0 3).trans (low _ _), ((above _ _ 3 1).trans (above _ _ 0 1)).trans (low _ _),
    (((above _ _ 4 1).trans (above _ _ 1 1)).trans (above _ _ 0 1)).trans (low _ _),
    ((((above _ _ 5 1).trans (above _ _ 2 1)).trans (above _ _ 1 1)).trans (above _ _ 0 1)).trans (low _ _),
    ((((above _ _ 6 22).trans (above _ _ 3 22)).trans (above _ _ 2 22)).trans (above _ _ 1 22)).trans
      ((above _ _ 0 22).trans BitVec.extractLsb'_eq_self)⟩

/-- Settles O21: the write of each of the five registers stores its low bits, and its address reads them. -/
theorem parameterRegistersStoreTheirLowBits : Obligations.ParameterRegistersStoreTheirLowBits := by
  intro s v rest
  have written {n : Nat} (hn : n < 65536) (notCmd : n ≠ 1) (h : s.pending = .write (BitVec.ofNat 20 n) v :: rest) :=
    step_of_write_register hn notCmd h
  have low {w : Nat} (hw : w ≤ 32) : v.extractLsb' 0 w = v.setWidth w := (BitVec.setWidth_eq_extractLsb' hw).symm
  rw [low (by decide), low (by decide), low (by decide), low (by decide)]
  refine ⟨fun h => ⟨_, written (n := 4) (by decide) (by decide) h, rfl, ?_⟩,
    fun h => ⟨_, written (n := 5) (by decide) (by decide) h, rfl, ?_⟩,
    fun h => ⟨_, written (n := 6) (by decide) (by decide) h, rfl, ?_⟩,
    fun h => ⟨_, written (n := 7) (by decide) (by decide) h, rfl, ?_⟩,
    fun h => ⟨_, written (n := 8) (by decide) (by decide) h, rfl, ?_⟩⟩
  all_goals exact (readAt_register _ (by decide)).trans (setWidth_setWidth_eq_mod v _)

/-- Settles O23: the step is a byte write of the commands, and a byte address reads its byte. -/
theorem byteWriteStoresOneByte : Obligations.ByteWriteStoresOneByte := by
  intro s v rest
  have byte : BitVec.ofNat 8 v.toNat = v.setWidth 8 := BitVec.ofNat_toNat 8 v
  refine ⟨fun p hp h => ⟨_, step_of_write_cw hp h, rfl, fun p' => ?_, fun p' hp' => ?_⟩,
    fun b hb j hj h => ⟨_, step_of_write_blk hb hj h, rfl, fun b' j' hj' => ?_, fun b' hb' j' hj' => ?_⟩⟩
  · rw [byte]
    exact readCw_setCw _ p p' _
  · rw [readAt_cw _ hp', readAt_cw s hp', readCw_setCw, apply_ite (BitVec.setWidth 32), setWidth_setWidth_eq_mod]
    rfl
  · rw [byte]
    exact blkByte_setBlkByte _ hj hj' _
  · rw [readAt_blk _ hb' hj', readAt_blk s hb' hj', blkByte_setBlkByte _ hj hj', apply_ite (BitVec.setWidth 32),
      setWidth_setWidth_eq_mod]
    rfl

/-- Settles O24: the write is no command, and its place stores nothing. -/
theorem otherHostWritesAreDropped : Obligations.OtherHostWritesAreDropped := by
  intro s a v rest h dropped
  have notCmd : a ≠ 0x00001 := by
    rintro rfl
    exact absurd dropped (by unfold StoresNothing; decide)
  rw [step_of_write h notCmd, writeElement_of_storesNothing dropped]

/-- Settles O26: `GFEXP` shows the powers themselves, `GFLOG` the exponent that the search finds. -/
theorem fieldTablesReadAsPowersAndExponents : Obligations.FieldTablesReadAsPowersAndExponents := by
  intro s
  refine ⟨?_, ?_, fun e lower upper => ?_, fun a lower upper => ?_⟩
  · exact readAt_gfexp s (e := 0) (by decide)
  · exact readAt_gflog s (a := 0) (by decide)
  · rw [readAt_gfexp s (by omega), gfexp, if_neg (by omega)]
  · have nonzero : BitVec.ofNat 8 a ≠ 0 := by
      intro zero
      have value := congrArg BitVec.toNat zero
      rw [BitVec.toNat_ofNat, Nat.mod_eq_of_lt (by omega)] at value
      exact absurd value (Nat.ne_of_gt lower)
    obtain ⟨least, most, power⟩ := gflog_spec s.params nonzero
    exact ⟨_, least, most, power, readAt_gflog s (by omega)⟩

/-- Settles O27: each entry is read whole, and the fields of a well-formed record fit a byte. -/
theorem parameterTablesReadAsTheirEntries : Obligations.ParameterTablesReadAsTheirEntries := by
  refine fun s => ⟨fun k hk => readAt_fmttab s hk, fun v lf hv1 hv2 hlf => ?_⟩
  have wf := capRecord_wf s.params hv1 hv2 (levelOf (BitVec.ofNat 2 lf))
  have field {f : Nat} (hf : f < 8) :
      readAt s (0xB0000 + 32 * v + 8 * lf + f) =
        BitVec.ofNat 32 (capField (capRecord s.params.raw v (levelOf (BitVec.ofNat 2 lf))) f) :=
    (readAt_cap s hv1 hv2 hlf hf).trans (setWidth_ofNat_of_lt (by decide) (capField_lt wf f))
  have fields : (List.range 6).map (fun f => readAt s (0xB0000 + 32 * v + 8 * lf + f)) =
      (List.range 6).map fun f => BitVec.ofNat 32 (capField (capRecord s.params.raw v (levelOf (BitVec.ofNat 2 lf))) f) :=
    List.map_congr_left fun f hf => field ((List.mem_range.1 hf).trans (by decide))
  exact fields

/-- Settles O28: the laws of the ring of residues; a product with the inverse of a factor leaves the other. -/
theorem fieldMultiplicationLaws : Obligations.FieldMultiplicationLaws := by
  intro p a b c
  refine ⟨residue_injective p ?commutes, residue_injective p ?associates, residue_injective p ?distributes,
    residue_injective p ?unit, ⟨fun zero => ?noZeroDivisors, gfMul_eq_zero_of_eq_zero p⟩⟩
  case commutes => simp only [residue_gfMul, mul_comm]
  case associates => simp only [residue_gfMul, mul_assoc]
  case distributes => simp only [residue_gfMul, residue_gfAdd, mul_add]
  case unit => rw [residue_gfMul, residue_one, one_mul]
  case noZeroDivisors =>
    by_cases ha : a = 0
    · exact .inl ha
    · refine .inr (residue_injective p ?_)
      have product : residue p a * residue p b = 0 := by rw [← residue_gfMul, zero, residue_zero]
      rw [residue_zero, (isUnit_residue p ha).mul_right_eq_zero.1 product]

/-- Settles O36: the near entry is the first one, and its index is its level field and its mask id. -/
theorem fmtdecRestoresUpToThreeFlippedBits : Obligations.FmtdecRestoresUpToThreeFlippedBits := by
  intro s k table hk near
  have first : FirstNear s.params.raw s.fmtRaw0 k := by
    refine firstNear_of_near table hk ?_
    rw [Near, table]
    exact Nat.lt_succ_of_le near
  have word : formatWord s.params.raw k = formatWord defaultRawParams k := by
    rw [formatWord, table]
    rfl
  obtain ⟨level, mask⟩ := level_mask_of_data_bits hk (formatWord_data_bits k hk)
  rw [((fmtdecTakesTheFirstNearEntry.2.2 s).1) k first, word, level, mask]
  rfl

end Sys2Proof.Proofs
end

section
/-!
SUPPORT AND PROOFS. The place of each cell in the walk of EXTRACT, that the walk covers the grid outside column 6 once,
EXTRACT on the right number of data cells, the places of the round-robin by formula, and the statements about them
(43_extract.md R112 to R115, R118; 44_deinterleave.md R123).
-/

namespace Sys2Proof.Proofs

open Sys2Proof.Machine Sys2Proof.Claims

/-! ## The cells of the walk as a set -/

theorem mem_cellsOfColumns {n : Nat} {cols : List Nat} {x y : Nat} :
    (x, y) ∈ cellsOfColumns n cols ↔ y < n ∧ x ∈ cols := by
  simp [cellsOfColumns]

theorem nodup_cellsOfColumns (n : Nat) {cols : List Nat} (once : cols.Nodup) : (cellsOfColumns n cols).Nodup := by
  refine List.nodup_flatMap.2 ⟨fun y _ => once.map (Prod.mk_left_injective y), ?_⟩
  refine List.nodup_range.imp fun different => ?_
  simp [Function.onFun, List.disjoint_left, different.symm]

theorem length_cellsOfColumns (n : Nat) (cols : List Nat) : (cellsOfColumns n cols).length = n * cols.length := by
  simp [cellsOfColumns]

/-- One column of a wide enough grid is left out (43_extract.md R113). -/
theorem length_columns {n : Nat} (wide : 6 < n) : ((List.range n).filter fun x => decide (x ≠ 6)).length = n - 1 := by
  have left_out := List.length_erase_of_mem (List.mem_range.2 wide)
  rw [List.nodup_range.erase_eq_filter, List.length_range] at left_out
  rw [← left_out]
  congr 2
  funext x
  simp [bne, Bool.beq_eq_decide_eq]

/-! ## The place of each cell in the walk -/

/-- In a list of parts of length `m` element `d` of part `i` stands at `m * i + d`. -/
theorem getElem?_flatMap_of_length {α β : Type} {f : α → List β} {m : Nat} (length : ∀ x, (f x).length = m)
    (l : List α) (i : Nat) {d : Nat} (hd : d < m) : (l.flatMap f)[m * i + d]? = l[i]?.bind fun x => (f x)[d]? := by
  induction l generalizing i with
  | nil => rfl
  | cons x l ih =>
    rw [List.flatMap_cons]
    cases i with
    | zero =>
      rw [Nat.mul_zero, Nat.zero_add, List.getElem?_append_left ((length x).symm ▸ hd)]
      rfl
    | succ i =>
      have later : (f x).length ≤ m * (i + 1) + d := by rw [length x, Nat.mul_succ]; omega
      rw [List.getElem?_append_right later, length x, show m * (i + 1) + d - m = m * i + d by rw [Nat.mul_succ]; omega, ih]
      rfl

theorem length_sweepPair (n : Nat) (up : Bool) (col : Nat) : (sweepPair n up col).length = 2 * n := by
  simp [sweepPair, Nat.mul_comm]

/-- One pair: row after row, from the bottom when it is swept upward, the right column first (43_extract.md R113). -/
theorem getElem?_sweepPair {n i d : Nat} (hi : i < n) (hd : d < 2) (up : Bool) (col : Nat) :
    (sweepPair n up col)[2 * i + d]? = some (col - d, if up then n - 1 - i else i) := by
  rw [sweepPair, getElem?_flatMap_of_length (m := 2) (fun _ => rfl) _ i hd, List.getElem?_range hi]
  interval_cases d <;> rfl

/-- The pairs one after the other, the direction turning after each (43_extract.md R112). -/
theorem getElem?_sweepPairs {n r : Nat} (hr : r < 2 * n) (up : Bool) (cols : List Nat) (k : Nat) :
    (sweepPairs n up cols)[2 * n * k + r]? =
      cols[k]?.bind fun col => (sweepPair n (if k % 2 = 0 then up else !up) col)[r]? := by
  induction cols generalizing up k with
  | nil => rfl
  | cons col cols ih =>
    rw [sweepPairs]
    cases k with
    | zero =>
      rw [Nat.mul_zero, Nat.zero_add, List.getElem?_append_left (by rw [length_sweepPair]; exact hr)]
      rfl
    | succ k =>
      have later : (sweepPair n up col).length ≤ 2 * n * (k + 1) + r := by
        rw [length_sweepPair, Nat.mul_succ]
        omega
      have turned : (if k % 2 = 0 then !up else !!up) = if (k + 1) % 2 = 0 then up else !up := by
        rw [Bool.not_not]
        rcases Nat.mod_two_eq_zero_or_one k with even | odd
        · rw [if_pos even, if_neg (by omega)]
        · rw [if_neg (by omega), if_pos (by omega)]
      rw [List.getElem?_append_right later, length_sweepPair,
        show 2 * n * (k + 1) + r - 2 * n = 2 * n * k + r by rw [Nat.mul_succ]; omega, ih, turned]
      rfl

/-- The next pair is two columns further left, but for column 6, which is in none (43_extract.md R113). -/
theorem pairColumn_succ {v k : Nat} (hk : k + 1 < 8 + 2 * v) :
    pairColumn (17 + 4 * v) (k + 1) =
      if pairColumn (17 + 4 * v) k - 2 = 6 then 5 else pairColumn (17 + 4 * v) k - 2 := by
  unfold pairColumn
  split <;> split <;> split <;> omega

theorem getElem?_rightColumns {v : Nat} (j : Nat) {k fuel : Nat} (hj : j < fuel) (hk : k + j < 8 + 2 * v) :
    (rightColumns fuel (pairColumn (17 + 4 * v) k))[j]? = some (pairColumn (17 + 4 * v) (k + j)) := by
  induction j generalizing k fuel with
  | zero =>
    obtain ⟨fuel, rfl⟩ : ∃ fuel', fuel = fuel' + 1 := ⟨fuel - 1, by omega⟩
    have inside : ¬pairColumn (17 + 4 * v) k < 1 := by unfold pairColumn; split <;> omega
    rw [rightColumns, if_neg inside]
    rfl
  | succ j ih =>
    obtain ⟨fuel, rfl⟩ : ∃ fuel', fuel = fuel' + 1 := ⟨fuel - 1, by omega⟩
    have inside : ¬pairColumn (17 + 4 * v) k < 1 := by unfold pairColumn; split <;> omega
    rw [rightColumns, if_neg inside, List.getElem?_cons_succ, ← pairColumn_succ (by omega), ih (by omega) (by omega),
      show k + 1 + j = k + (j + 1) by omega]

/-! ## EXTRACT on the right number of data cells -/

theorem extractBody_of_right_count {s : State} (legal : LegalVersion s)
    (right : dataCells s (moduleCount s) / 8 = totalCodewords (capOf s)) : extractBody s = .goesOn (extracted s) := by
  simp only [extractBody_of_legal legal, count_walk]
  rw [if_neg (not_not.2 right)]

/-- The state that EXTRACT leaves then: every codeword of `T` is stored (43_extract.md R114). -/
theorem extracted_frame_of_right_count {s : State} (legal : LegalVersion s)
    (right : dataCells s (moduleCount s) / 8 = totalCodewords (capOf s)) :
    extracted s =
      { s with stage := 3, cw := (extracted s).cw, cwCnt := BitVec.ofNat 13 (totalCodewords (capOf s)) } := by
  have fits : totalCodewords (capOf s) ≤ 4096 := (capRecord_bounds (capOf_wf (validVersion_of_legal legal))).2.2.1
  have frame := extracted_frame s
  rwa [right, min_eq_left (by omega)] at frame

/-! ## The places of the round-robin by formula -/

/-- The places dealt before a turn are the first of all the places dealt. -/
theorem dealtBefore_le_dealtBefore (c : CapRecord) {m n : Nat} (h : m ≤ n) : dealtBefore c m <+: dealtBefore c n := by
  obtain ⟨d, rfl⟩ := Nat.exists_eq_add_of_le h
  rw [dealtBefore, dealtBefore, List.range_add, List.map_append, List.filter_append]
  exact List.prefix_append _ _

/-- The byte of a turn that deals has as many bytes of the stream before it as turns have dealt before. -/
theorem getElem?_dealOrder {c : CapRecord} {n : Nat} (deals : Deals c n) (hn : n < 256 * blockCount c) :
    (dealOrder c)[(dealtBefore c n).length]? = some (turnPlace c n) := by
  obtain ⟨later, order⟩ := dealtBefore_le_dealtBefore c hn
  rw [dealtBefore_succ_of_deals deals, dealtBefore_eq_dealOrder, List.append_assoc] at order
  rw [← order, List.getElem?_append_right le_rfl, Nat.sub_self]
  rfl

/-- While every turn deals, the turns are counted (44_deinterleave.md R123). -/
theorem length_dealtBefore_of_deals {c : CapRecord} {m : Nat} (k : Nat) (deals : ∀ n, m ≤ n → n < m + k → Deals c n) :
    (dealtBefore c (m + k)).length = (dealtBefore c m).length + k := by
  induction k with
  | zero => rfl
  | succ k ih =>
    rw [← Nat.add_assoc, dealtBefore_succ_of_deals (deals (m + k) (by omega) (by omega)), List.length_append,
      ih fun n lower upper => deals n lower (by omega)]
    rfl

/-- While no turn deals, none is counted. -/
theorem length_dealtBefore_of_not_deals {c : CapRecord} {m : Nat} (k : Nat)
    (full : ∀ n, m ≤ n → n < m + k → ¬Deals c n) : (dealtBefore c (m + k)).length = (dealtBefore c m).length := by
  induction k with
  | zero => rfl
  | succ k ih =>
    rw [← Nat.add_assoc, dealtBefore_succ_of_not_deals (full (m + k) (by omega) (by omega)),
      ih fun n lower upper => full n lower (by omega)]

/-- The turns of byte `j` of the blocks from `b` on. -/
theorem deals_row_iff {c : CapRecord} {j b : Nat} (hb : b < blockCount c) :
    Deals c (blockCount c * j + b) ↔ j < blockTotal c b := by
  obtain ⟨quotient, remainder⟩ := divMod_of_row (d := j) hb
  rw [Deals, Nat.mul_comm, quotient, remainder]

/-- As long as no block is full, every turn deals. -/
theorem deals_of_lt {c : CapRecord} (blocks : 0 < blockCount c) {n : Nat}
    (h : n < blockCount c * (if 0 < c.c2 then min c.n1 c.n2 else c.n1)) : Deals c n := by
  have row := (Nat.div_lt_iff_lt_mul blocks).2 (Nat.mul_comm _ _ ▸ h)
  have block := Nat.mod_lt n blocks
  have count : blockCount c = c.c1 + c.c2 := rfl
  rw [Deals, blockTotal]
  split at row
  · rw [lt_min_iff] at row
    split
    · exact row.1
    · exact row.2
  · rw [if_pos (by omega)]
    exact row

/-- The byte of the stream that an early turn deals is that of its own number (44_deinterleave.md R123). -/
theorem getElem?_dealOrder_of_lt {c : CapRecord} (blocks : 0 < blockCount c) (short : c.n1 ≤ 255) {p : Nat}
    (h : p < blockCount c * (if 0 < c.c2 then min c.n1 c.n2 else c.n1)) :
    (dealOrder c)[p]? = some (p % blockCount c, p / blockCount c) := by
  have counted := length_dealtBefore_of_deals (c := c) (m := 0) p fun n _ hn =>
    deals_of_lt blocks (lt_trans (by omega) h)
  rw [Nat.zero_add, show (dealtBefore c 0).length = 0 from rfl, Nat.zero_add] at counted
  have inside : p < 256 * blockCount c := by
    refine h.trans_le ?_
    rw [Nat.mul_comm]
    refine Nat.mul_le_mul_right _ ?_
    split
    · exact (min_le_left _ _).trans (short.trans (by decide))
    · exact short.trans (by decide)
  have place := getElem?_dealOrder (deals_of_lt blocks h) inside
  rwa [counted] at place

/-- Where the blocks of group 2 are one byte longer, their last bytes come last, in block order
(44_deinterleave.md R123). -/
theorem getElem?_dealOrder_last {c : CapRecord} (blocks : 0 < blockCount c) (short : c.n1 < 255)
    (longer : c.n2 = c.n1 + 1) {d : Nat} (hd : d < c.c2) :
    (dealOrder c)[blockCount c * c.n1 + d]? = some (c.c1 + d, c.n1) := by
  have group1 {b : Nat} (hb : b < c.c1) : blockTotal c b = c.n1 := if_pos hb
  have group2 {b : Nat} (hb : c.c1 ≤ b) : blockTotal c b = c.n1 + 1 := (if_neg (Nat.not_lt.2 hb)).trans longer
  have count : blockCount c = c.c1 + c.c2 := rfl
  have rows : (dealtBefore c (0 + blockCount c * c.n1)).length = 0 + blockCount c * c.n1 :=
    length_dealtBefore_of_deals _ fun n _ hn => deals_of_lt blocks <| by
      rw [if_pos (by omega), longer, min_eq_left (by omega)]; omega
  have full : (dealtBefore c (blockCount c * c.n1 + c.c1)).length = (dealtBefore c (blockCount c * c.n1)).length := by
    refine length_dealtBefore_of_not_deals _ fun n lower upper => ?_
    obtain ⟨b, rfl⟩ := Nat.exists_eq_add_of_le lower
    rw [deals_row_iff (by omega), group1 (by omega)]
    exact lt_irrefl _
  have room : ∀ n, blockCount c * c.n1 + c.c1 ≤ n → n < blockCount c * c.n1 + c.c1 + (d + 1) → Deals c n := by
    intro n lower upper
    obtain ⟨b, rfl⟩ := Nat.exists_eq_add_of_le (Nat.le_of_add_right_le lower)
    rw [deals_row_iff (by omega), group2 (by omega)]
    exact Nat.lt_succ_self _
  have counted := length_dealtBefore_of_deals d fun n lower upper => room n lower (by omega)
  rw [full] at counted
  rw [Nat.zero_add] at rows
  rw [rows] at counted
  have inside : blockCount c * c.n1 + c.c1 + d < 256 * blockCount c :=
    calc blockCount c * c.n1 + c.c1 + d < blockCount c * c.n1 + blockCount c := by omega
      _ = blockCount c * (c.n1 + 1) := (Nat.mul_succ _ _).symm
      _ ≤ blockCount c * 256 := Nat.mul_le_mul_left _ (by omega)
      _ = 256 * blockCount c := Nat.mul_comm _ _
  have place := getElem?_dealOrder (room _ (by omega) (by omega)) inside
  obtain ⟨quotient, remainder⟩ := divMod_of_row (d := c.n1) (j := c.c1 + d) (k := blockCount c) (by omega)
  rw [counted, turnPlace, Nat.add_assoc, Nat.mul_comm, quotient, remainder, Nat.mul_comm] at place
  exact place

/-! ## The obligations -/

/-- Settles O39: the pairs are found in order, and each cell within its pair. -/
theorem walkGoesZigzagFromTheBottomRight : Obligations.WalkGoesZigzagFromTheBottomRight := by
  refine fun v _ _ => ⟨?_, fun k i d hk hi hd => ?_⟩
  · rw [(zigzag_perm v).length_eq, length_cellsOfColumns, length_columns (by omega),
      show 17 + 4 * v - 1 = 16 + 4 * v by omega]
  · have first : 17 + 4 * v - 1 = pairColumn (17 + 4 * v) 0 := by unfold pairColumn; split <;> omega
    have column := getElem?_rightColumns (v := v) k (k := 0) (fuel := 17 + 4 * v) (by omega) (by omega)
    rw [Nat.zero_add] at column
    rw [zigzag, first, Nat.add_assoc, getElem?_sweepPairs (by omega), column, Option.bind_some, getElem?_sweepPair hi hd]
    have direction : (if (if k % 2 = 0 then true else !true) = true then 17 + 4 * v - 1 - i else i) =
        if k % 2 = 0 then 16 + 4 * v - i else i := by
      split
      · rw [if_pos rfl, show 17 + 4 * v - 1 = 16 + 4 * v by omega]
      · rfl
    rw [direction]

/-- Settles O40: the walk is a rearrangement of the cells outside column 6. -/
theorem walkVisitsEachCellOutsideColumnSixOnce : Obligations.WalkVisitsEachCellOutsideColumnSixOnce := by
  refine fun v _ _ => ⟨?_, fun x y => ?_⟩
  · exact (zigzag_perm v).nodup_iff.2 (nodup_cellsOfColumns _ (List.nodup_range.filter _))
  · rw [(zigzag_perm v).mem_iff, mem_cellsOfColumns, List.mem_filter, List.mem_range, decide_eq_true_eq]
    tauto

/-- Settles O41: the count is `T`, and the walk has stored all of its codewords. -/
theorem extractPacksTheWalkIntoCodewords : Obligations.ExtractPacksTheWalkIntoCodewords := by
  intro s legal enough few
  have right : dataCells s (moduleCount s) / 8 = totalCodewords (capOf s) := by
    rw [moduleCount]
    omega
  refine ⟨extracted s, by rw [exec_extract, extractBody_of_right_count legal right, Flow.state_goesOn],
    extracted_frame_of_right_count legal right, fun p hp i hi => getLsbD_readCw_extracted s ?_ hi,
    fun p hp => readCw_extracted_of_le s ?_⟩
  all_goals rwa [right, min_self]

/-- Settles O44: the places of the round-robin order are given by formula. -/
theorem deintClosedForm : Obligations.DeintClosedForm := by
  intro s legal
  obtain ⟨blocks, short⟩ := capOf_blocks legal
  have wf := capOf_wf (validVersion_of_legal legal)
  have short1 : (capOf s).n1 ≤ 255 := by
    simp only [CapRecord.wf, Bool.and_eq_true, decide_eq_true_eq] at wf
    omega
  refine ⟨deinterleaved s, exec_deint_of_legal legal,
    fun p hp => blkByte_deinterleaved legal (getElem?_dealOrder_of_lt blocks short1 hp),
    fun group2 longer p lower upper => blkByte_deinterleaved legal ?_⟩
  obtain ⟨d, rfl⟩ := Nat.exists_eq_add_of_le lower
  have total : totalCodewords (capOf s) = blockCount (capOf s) * (capOf s).n1 + (capOf s).c2 := by
    rw [totalCodewords, longer, blockCount]
    ring
  have short2 := short (capOf s).c1 (by rw [blockCount]; omega)
  rw [blockTotal, if_neg (lt_irrefl _), longer] at short2
  rw [Nat.add_sub_cancel_left]
  exact getElem?_dealOrder_last blocks short2 longer (by omega)

end Sys2Proof.Proofs
end

section
/-!
SUPPORT AND PROOFS. The stages of RUN on a symbol that decodes: the format word, the unmasked bits, the codewords, the dealt
blocks and the corrected blocks, and the statements about RUN (46_sequencing.md R143; 95_test_vectors.md S1, S6, S7).
-/

namespace Sys2Proof.Proofs

open Sys2Proof.Machine Sys2Proof.Claims

/-! ## The format word -/

/-- What FMTDEC leaves when it takes entry `k` from the word that `copy` names (41_format_decode.md R99). -/
def formatted (s : State) (copy : BitVec 1) (k : Nat) : State := fmtAccept copy k (setStage 1 s)

theorem fmtdecBody_of_formatFrom {s : State} {copy : BitVec 1} {k : Nat} (h : FormatFrom s copy k) :
    fmtdecBody s = .goesOn (formatted s copy k) := by
  rcases h with ⟨rfl, first⟩ | ⟨rfl, primary, first⟩
  · exact fmtdecBody_of_primary first
  · exact fmtdecBody_of_secondary primary first

/-! ## The unmasked bits -/

theorem cellBit_maskCell (p : BitVec 3) (x y : Nat) (c : Cell) :
    cellBit false (maskCell p x y c) = cellBit (maskRule p.toNat x y) c := by
  rw [maskCell, maskflag_eq_maskRule]
  cases maskRule p.toNat x y <;> cases c <;> rfl

theorem mem_zigzag_moduleCount {s : State} {x y : Nat} (h : (x, y) ∈ zigzag (moduleCount s)) :
    x < moduleCount s ∧ y < moduleCount s := by
  rw [moduleCount, (zigzag_perm _).mem_iff, mem_cellsOfColumns, List.mem_filter, List.mem_range] at h
  exact ⟨h.2.1, h.1⟩

/-- The data bits after UNMASK are those of the masked grid, flipped by the pattern (42_mask.md R105). -/
theorem dataBits_unmasked {s : State} (legal : LegalVersion s) :
    dataBits (unmasked s) (moduleCount s) (fun _ _ => false) = dataBits s (moduleCount s) (maskRule s.mask.toNat) := by
  rw [dataBits_eq_filterMap_cellBit, dataBits_eq_filterMap_cellBit]
  refine List.filterMap_congr fun xy hxy => ?_
  have inside := mem_zigzag_moduleCount hxy
  rw [gridCell_unmasked legal (inside.1.trans (moduleCount_lt legal)), if_pos inside, cellBit_maskCell]

/-! ## The codewords -/

/-- The bits pushed one after the other, the first the most significant (30_encoding.md R82). -/
theorem getLsbD_foldl_pushBit (bit : Nat → Bool) {n : Nat} (hn : n ≤ 8) {i : Nat} (hi : i < n) :
    ((List.range n).foldl (fun a i => pushBit a (bit i)) 0).getLsbD (n - 1 - i) = bit i := by
  induction n with
  | zero => exact absurd hi i.not_lt_zero
  | succ n ih =>
    rw [List.range_succ, List.foldl_concat, getLsbD_pushBit _ _ (by omega)]
    rcases Nat.lt_succ_iff_lt_or_eq.1 hi with earlier | rfl
    · rw [if_neg (by omega), show n + 1 - 1 - i - 1 = n - 1 - i by omega, ih (by omega) earlier]
    · rw [if_pos (by omega)]

theorem getLsbD_codewordOf (bits : List Bool) (p : Nat) {i : Nat} (hi : i < 8) :
    (codewordOf bits p).getLsbD (7 - i) = bits.getD (8 * p + i) false :=
  getLsbD_foldl_pushBit (fun i => bits.getD (8 * p + i) false) le_rfl hi

/-- What EXTRACT stores, as codewords of the stream of data bits (43_extract.md R113, R114). -/
theorem readCw_extracted {s : State} (right : dataCells s (moduleCount s) / 8 = totalCodewords (capOf s)) (p : Nat) :
    readCw (extracted s) p =
      if p < totalCodewords (capOf s) then codewordOf (dataBits s (moduleCount s) fun _ _ => false) p
      else readCw s p := by
  split
  · next hp =>
    refine BitVec.eq_of_getLsbD_eq fun i hi => ?_
    have bit := getLsbD_readCw_extracted s (p := p) (i := 7 - i) (by rwa [right, min_self]) (by omega)
    rw [← getLsbD_codewordOf _ _ (by omega), show 7 - (7 - i) = i by omega] at bit
    exact bit
  · next hp => exact readCw_extracted_of_le s (by rw [right, min_self]; omega)

/-! ## The dealt blocks -/

/-- DEINT deals each block from the stream in `CW` (44_deinterleave.md R121). -/
theorem received_deinterleaved {s : State} (legal : LegalVersion s) {bits : List Bool}
    (stream : ∀ p < totalCodewords (capOf s), readCw s p = codewordOf bits p) {b : Nat} (hb : b < blockCount (capOf s)) :
    received (deinterleaved s) b = dealt (capOf s) bits b := by
  have record : capOf (deinterleaved s) = capOf s := by
    rw [deinterleaved_frame legal]
    rfl
  rw [received, dealt, record]
  refine List.map_congr_left fun j hj => ?_
  have inside : j < blockTotal (capOf s) b := List.mem_range.1 hj
  have row : j < 256 := inside.trans_le (((capOf_blocks legal).2 b hb).trans (by decide))
  have place : (b, j) ∈ dealOrder (capOf s) := mem_dealOrder.2 ⟨row, hb, inside⟩
  have index := List.idxOf_lt_length_of_mem place
  rw [length_dealOrder_capOf legal] at index
  rw [blkByte_deinterleaved legal (List.getElem?_idxOf place), stream _ index]

theorem length_dealt (c : CapRecord) (bits : List Bool) (b : Nat) : (dealt c bits b).length = blockTotal c b := by
  simp [dealt]

/-! ## The four stages before the correction -/

/-- What the first four stages of RUN leave (46_sequencing.md R143). -/
def dealtState (s : State) (copy : BitVec 1) (k : Nat) : State :=
  deinterleaved (extracted (unmasked (formatted s copy k)))

/-- The symbol that a RUN within reach starts from: the version is legal, the format decodes from the word that `copy`
names, and the data cells, unmasked by its pattern, give `T` codewords (46_sequencing.md R143). -/
structure Symbol (s : State) (copy : BitVec 1) (k : Nat) (w : BitVec 15) (c : CapRecord) (bits : List Bool) : Prop where
  legal : LegalVersion s
  format : FormatFrom s copy k
  word : w = formatWord s.params.raw k
  record : c = capRecord s.params.raw s.version.toNat (levelOf (w.extractLsb' 13 2))
  stream : bits = dataBits s (17 + 4 * s.version.toNat) (maskRule (w.extractLsb' 10 3).toNat)
  enough : 8 * totalCodewords c ≤ bits.length
  few : bits.length ≤ 8 * totalCodewords c + 7

section
variable {s : State} {copy : BitVec 1} {k : Nat} {w : BitVec 15} {c : CapRecord} {bits : List Bool}
  (h : Symbol s copy k w c bits)
include h

theorem Symbol.capOf_unmasked : capOf (unmasked (formatted s copy k)) = c := by
  rw [unmasked_frame, h.record, h.word]
  rfl

theorem Symbol.legal_unmasked : LegalVersion (unmasked (formatted s copy k)) :=
  legalVersion_unmasked (s := formatted s copy k) h.legal

omit h in
theorem moduleCount_unmasked_formatted : moduleCount (unmasked (formatted s copy k)) = 17 + 4 * s.version.toNat := by
  rw [moduleCount, unmasked_version]
  rfl

theorem Symbol.dataBits_unmasked :
    dataBits (unmasked (formatted s copy k)) (17 + 4 * s.version.toNat) (fun _ _ => false) = bits := by
  rw [h.stream, h.word]
  exact Proofs.dataBits_unmasked (s := formatted s copy k) h.legal

theorem Symbol.right_count :
    dataCells (unmasked (formatted s copy k)) (moduleCount (unmasked (formatted s copy k))) / 8 =
      totalCodewords (capOf (unmasked (formatted s copy k))) := by
  have length := length_dataBits (unmasked (formatted s copy k)) s.version.toNat fun _ _ => false
  rw [h.dataBits_unmasked] at length
  have enough := h.enough
  have few := h.few
  rw [moduleCount_unmasked_formatted, h.capOf_unmasked]
  omega

theorem Symbol.capOf_extracted : capOf (extracted (unmasked (formatted s copy k))) = c := h.capOf_unmasked

theorem Symbol.legal_extracted : LegalVersion (extracted (unmasked (formatted s copy k))) := h.legal_unmasked

theorem Symbol.readCw_extracted (p : Nat) :
    readCw (extracted (unmasked (formatted s copy k))) p =
      if p < totalCodewords c then codewordOf bits p else readCw s p := by
  have kept : readCw (unmasked (formatted s copy k)) p = readCw s p := by
    rw [unmasked_frame]
    rfl
  rw [Proofs.readCw_extracted h.right_count, h.capOf_unmasked, moduleCount_unmasked_formatted, h.dataBits_unmasked, kept]

/-- The frame of the first four stages (46_sequencing.md R143). -/
theorem Symbol.dealtState_frame :
    dealtState s copy k =
      { s with
        stage := 4, fmtWord := w, level := w.extractLsb' 13 2, mask := w.extractLsb' 10 3, fmtValid := 1, fmtCopy := copy
        cwCnt := BitVec.ofNat 13 (totalCodewords c)
        grid := (unmasked (formatted s copy k)).grid
        cw := (extracted (unmasked (formatted s copy k))).cw
        blk := (dealtState s copy k).blk
        bstat := Vector.replicate 128 0 } := by
  have extract := extracted_frame_of_right_count h.legal_unmasked h.right_count
  rw [h.capOf_unmasked] at extract
  rw [h.word]
  calc dealtState s copy k
      = { extracted (unmasked (formatted s copy k)) with
          stage := 4, blk := (dealtState s copy k).blk, bstat := Vector.replicate 128 0 } :=
        deinterleaved_frame h.legal_extracted
    _ = { unmasked (formatted s copy k) with
          stage := 4, cw := (extracted (unmasked (formatted s copy k))).cw
          cwCnt := BitVec.ofNat 13 (totalCodewords c)
          blk := (dealtState s copy k).blk, bstat := Vector.replicate 128 0 } :=
        congrArg (fun u => { u with
          stage := 4, blk := (dealtState s copy k).blk, bstat := Vector.replicate 128 0 }) extract
    _ = _ :=
        congrArg (fun u => { u with
          stage := 4, cw := (extracted (unmasked (formatted s copy k))).cw
          cwCnt := BitVec.ofNat 13 (totalCodewords c)
          blk := (dealtState s copy k).blk, bstat := Vector.replicate 128 0 }) (unmasked_frame (formatted s copy k))

theorem Symbol.capOf_dealtState : capOf (dealtState s copy k) = c := by
  rw [h.dealtState_frame, h.record]
  rfl

theorem Symbol.legal_dealtState : LegalVersion (dealtState s copy k) := by
  rw [h.dealtState_frame]
  exact h.legal

theorem Symbol.params_dealtState : (dealtState s copy k).params = s.params := by rw [h.dealtState_frame]

theorem Symbol.received_dealtState {b : Nat} (hb : b < blockCount c) :
    received (dealtState s copy k) b = dealt c bits b := by
  rw [← h.capOf_extracted] at hb
  rw [dealtState, received_deinterleaved h.legal_extracted (fun p hp => ?_) hb, h.capOf_extracted]
  rw [h.capOf_extracted] at hp
  rw [h.readCw_extracted, if_pos hp]

/-- The bytes of `BLK` that are no codeword of a block are as before. -/
theorem Symbol.readBlk_dealtState {a : Nat}
    (outside : ∀ b j, b < blockCount c → j < blockTotal c b → a ≠ 256 * b + j) :
    readBlk (dealtState s copy k) a = readBlk s a := by
  have kept : readBlk (extracted (unmasked (formatted s copy k))) a = readBlk s a := by
    rw [extracted_frame, unmasked_frame]
    rfl
  rw [dealtState, readBlk_deinterleaved h.legal_extracted (h.capOf_extracted ▸ outside), kept]

/-- RUN goes on through its first four stages and ends as the correction of the blocks does (46_sequencing.md R143). -/
theorem Symbol.runBody_eq : runBody s = rsallBody (dealtState s copy k) := by
  rw [runBody_of_legal h.legal, fmtdecBody_of_formatFrom h.format, Flow.goesOn_andThen,
    unmaskBody_of_legal (s := formatted s copy k) h.legal, Flow.goesOn_andThen,
    extractBody_of_right_count h.legal_unmasked h.right_count, Flow.goesOn_andThen, deintBody_of_legal h.legal_extracted,
    Flow.goesOn_andThen]
  rfl

end

/-! ## RUN on a symbol within reach -/

/-- Every dealt block has a member within its capacity (45_reed_solomon.md R134). -/
def DealtWithinReach (s : State) (c : CapRecord) (bits : List Bool) (members : Nat → List Byte) : Prop :=
  ∀ b < blockCount c,
    (members b).length = blockTotal c b ∧ InCode s.params.raw (blockCapacity c b) (members b) ∧
    dist (dealt c bits b) (members b) ≤ blockCapacity c b

section
variable {s : State} {copy : BitVec 1} {k : Nat} {w : BitVec 15} {c : CapRecord} {bits : List Bool}
  {members : Nat → List Byte} (h : Symbol s copy k w c bits) (reach : DealtWithinReach s c bits members)
include h reach

theorem Symbol.withinReach {b : Nat} (hb : b < blockCount (capOf (dealtState s copy k))) :
    WithinReach (dealtState s copy k) b (members b) := by
  rw [h.capOf_dealtState] at hb
  rw [WithinReach, capacityOf, h.capOf_dealtState, h.received_dealtState hb, h.params_dealtState]
  exact reach b hb

/-- RUN leaves what RSALL leaves of the dealt blocks (46_sequencing.md R143, 45_reed_solomon.md R139). -/
theorem Symbol.exists_run :
    ∃ t, exec .run s = .next t ∧
      t = { dealtState s copy k with stage := 5, blk := t.blk, syn := t.syn, bstat := t.bstat } ∧
      (∀ b < blockCount c, ∀ j < 256,
        blkByte t b j = if j < blockTotal c b then (members b).getD j 0 else blkByte (dealtState s copy k) b j) ∧
      (∀ a, 256 * blockCount c ≤ a → readBlk t a = readBlk (dealtState s copy k) a) ∧
      (∀ b < blockCount c, ∀ i < 32,
        synByte t b i = if i < 2 * blockCapacity c b then powerSum s.params.raw (dealt c bits b) i
          else synByte (dealtState s copy k) b i) ∧
      (∀ a, 32 * blockCount c ≤ a → readSyn t a = readSyn (dealtState s copy k) a) ∧
      ∀ b, bstatOf t b =
        if b < blockCount c then
          (if dealt c bits b = members b then 0x01 else BitVec.ofNat 8 (3 + 8 * dist (dealt c bits b) (members b)))
        else bstatOf (dealtState s copy k) b := by
  obtain ⟨t, run, frame, blk, blkAfter, syn, synAfter, bstat⟩ :=
    rsallRestoresEveryBlock (dealtState s copy k) members h.legal_dealtState fun b => h.withinReach reach
  rw [exec_rsall, ← h.runBody_eq, ← exec_run] at run
  simp only [capacityOf, h.capOf_dealtState, h.params_dealtState] at blk blkAfter syn synAfter bstat
  refine ⟨t, run, frame, blk, blkAfter, fun b hb i hi => ?_, synAfter, fun b => ?_⟩
  · rw [syn b hb i hi, h.received_dealtState hb]
  · rw [bstat b]
    split
    · next hb => rw [h.received_dealtState hb]
    · rfl

end

/-! ## The places that RUN leaves -/

section
variable {s t : State} (seed : t.seed = s.seed)
include seed

theorem readGrid_congr (grid : t.grid = s.grid) (a : Nat) : readGrid t a = readGrid s a := by
  rw [readGrid, seed, grid, readGrid]

theorem gridCell_congr (grid : t.grid = s.grid) (x y : Nat) : gridCell t x y = gridCell s x y := by
  rw [gridCell, readGrid_congr seed grid, gridCell]

theorem readCw_congr (cw : t.cw = s.cw) (p : Nat) : readCw t p = readCw s p := by rw [readCw, seed, cw, readCw]

theorem readSyn_congr (syn : t.syn = s.syn) (a : Nat) : readSyn t a = readSyn s a := by rw [readSyn, seed, syn, readSyn]

end

section
variable {s : State} {copy : BitVec 1} {k : Nat} {w : BitVec 15} {c : CapRecord} {bits : List Bool}
  (h : Symbol s copy k w c bits)
include h

theorem Symbol.seed_dealtState : (dealtState s copy k).seed = s.seed := by rw [h.dealtState_frame]

theorem Symbol.readSyn_dealtState (a : Nat) : readSyn (dealtState s copy k) a = readSyn s a :=
  readSyn_congr h.seed_dealtState (by rw [h.dealtState_frame]) a

theorem Symbol.bstatOf_dealtState (b : Nat) : bstatOf (dealtState s copy k) b = 0 := by
  have clear : (dealtState s copy k).bstat = (clearBstat s).bstat := by
    rw [h.dealtState_frame]
    rfl
  rw [bstatOf_eq_of_bstat_eq clear, bstatOf_clearBstat]

/-- The grid that RUN leaves is the unmasked one (42_mask.md R105). -/
theorem Symbol.gridCell_unmasked {x y : Nat} (hx : x < 256) (hy : y < 256) :
    gridCell (unmasked (formatted s copy k)) x y =
      if x < 17 + 4 * s.version.toNat ∧ y < 17 + 4 * s.version.toNat ∧
          gridCell s x y ≠ .function ∧ maskRule (w.extractLsb' 10 3).toNat x y = true
      then (if gridCell s x y = .dataLight then .dataDark else .dataLight)
      else gridCell s x y := by
  obtain ⟨t, run, -, cells, -⟩ := (unmaskFlipsTheMaskedDataCells.2 (formatted s copy k)).2 h.legal
  cases (exec_unmask_of_legal (s := formatted s copy k) h.legal).symm.trans run
  rw [h.word]
  exact cells x y hx hy

theorem Symbol.byte_lt {b j : Nat} (hb : b < blockCount c) (hj : j < blockTotal c b) : j < 256 := by
  rw [← h.capOf_dealtState] at hb hj
  exact hj.trans_le (((capOf_blocks h.legal_dealtState).2 b hb).trans (by decide))

end

section
variable {s : State} {copy : BitVec 1} {k : Nat} {w : BitVec 15} {c : CapRecord} {bits : List Bool}
  {members : Nat → List Byte} (h : Symbol s copy k w c bits) (reach : DealtWithinReach s c bits members)
include h reach

/-- RUN decodes a symbol within reach (46_sequencing.md R143). -/
theorem Symbol.run_decodes :
    ∃ t, exec .run s = .next t ∧ t.err = s.err ∧ Decoded s t copy w c bits members ∧
      ∀ b < blockCount c, received t b = members b := by
  obtain ⟨t, run, frame, blk, blkAfter, syn, synAfter, bstat⟩ := h.exists_run reach
  rw [h.dealtState_frame] at frame
  have grid : t.grid = (unmasked (formatted s copy k)).grid := by rw [frame]
  have cw : t.cw = (extracted (unmasked (formatted s copy k))).cw := by rw [frame]
  have seed : t.seed = s.seed := by rw [frame]
  have seed2 : t.seed = (unmasked (formatted s copy k)).seed := by
    rw [seed, unmasked_frame]
    rfl
  have record : capOf t = c := by
    rw [frame, h.record]
    rfl
  refine ⟨t, run, by rw [frame], ⟨?frame, fun x y hx hy => ?cells, fun a outside => ?outside, fun p => ?stream,
    fun b hb j hj => ?blk, fun a ha => ?blkAfter, fun b hb i hi => ?syn, fun a ha => ?synAfter, fun b => ?bstat⟩,
    fun b hb => ?received⟩
  case frame =>
    rw [grid, cw]
    exact frame
  case cells => rw [gridCell_congr seed2 grid, h.gridCell_unmasked hx hy]
  case outside =>
    rw [readGrid_congr seed2 grid, readGrid_unmasked (s := formatted s copy k) h.legal outside]
    rfl
  case stream => rw [readCw_congr (s := extracted (unmasked (formatted s copy k))) seed2 cw, h.readCw_extracted]
  case blk =>
    rw [blk b hb j hj]
    split
    · rfl
    · next rest =>
      refine h.readBlk_dealtState fun b' j' hb' hj' same => rest ?_
      have row := h.byte_lt hb' hj'
      obtain ⟨rfl, rfl⟩ : b' = b ∧ j' = j := by omega
      exact hj'
  case blkAfter =>
    rw [blkAfter a ha]
    refine h.readBlk_dealtState fun b' j' hb' hj' => ?_
    have row := h.byte_lt hb' hj'
    omega
  case syn => rw [syn b hb i hi, synByte, h.readSyn_dealtState, synByte]
  case synAfter => rw [synAfter a ha, h.readSyn_dealtState]
  case bstat => rw [bstat b, h.bstatOf_dealtState]
  case received =>
    refine List.ext_getElem (by rw [length_received, record, (reach b hb).1]) fun j hj hm => ?_
    rw [length_received, record] at hj
    rw [← List.getD_eq_getElem _ 0, ← List.getD_eq_getElem _ 0, getD_received t (by rw [record]; exact hj),
      blk b hb j (h.byte_lt hb hj), if_pos hj]

end

/-! ## The obligations -/

/-- Settles O55: the first four stages deal the blocks, and RSALL restores them. -/
theorem runDecodesAMaskedSymbol : Obligations.RunDecodesAMaskedSymbol := by
  intro s copy k w c bits members legal _ format word record stream enough few reach
  obtain ⟨t, run, -, decoded, -⟩ := Symbol.run_decodes ⟨legal, format, word, record, stream, enough, few⟩ reach
  exact ⟨t, run, decoded⟩

/-- Settles O54: the dealt blocks are the members within their own reach. -/
theorem runDecodesASymbolWithoutNoise : Obligations.RunDecodesASymbolWithoutNoise := by
  intro s copy k w c bits legal clear format word record stream enough few members
  have reach : DealtWithinReach s c bits (dealt c bits) :=
    fun b hb => ⟨length_dealt c bits b, members b hb, (dist_self _).trans_le (Nat.zero_le _)⟩
  obtain ⟨t, run, err, decoded, blocks⟩ := Symbol.run_decodes ⟨legal, format, word, record, stream, enough, few⟩ reach
  refine ⟨t, run, err.trans clear, decoded, blocks, fun b => ?_⟩
  obtain ⟨-, -, -, -, -, -, -, -, bstat⟩ := decoded
  rw [bstat b, if_pos rfl]

end Sys2Proof.Proofs
end
